-- ==== Sys2Proof/Word.lean ====
section
/-! DEFINITION. The byte and word types and the operand width of an operation (00_scope.md R7, R10). -/

namespace Sys2Proof

/-- A bus byte, 0..255 (00_scope.md R7). -/
abbrev Byte := BitVec 8

/-- A 16-bit address or datum; `+` and `-` on it are the `+16` and `-16` of 00_scope.md R10. -/
abbrev Word := BitVec 16

/-- The operand width `w` of an operation: always 8 or 16 (00_scope.md R10). -/
inductive Width where
  | w8
  | w16
deriving DecidableEq, Repr

/-- The number of bits of a width. -/
def Width.bits : Width → Nat
  | .w8 => 8
  | .w16 => 16

/-- The number of bytes of a width, `w/8`. -/
def Width.bytes : Width → Nat
  | .w8 => 1
  | .w16 => 2

end Sys2Proof
end

