-- ==== Sys2Proof/Syntax.lean ====
section
/-! DEFINITION. The instructions: one constructor of `Instr` for each row of opcode_table.json (30_encoding.md R136), with
its operand bytes as data, and the addressing modes of 40_addressing.md R170. -/

namespace Sys2Proof

/-- The thirteen addressing modes that yield an effective address, with their operand bytes (40_addressing.md R170,
R174 to R182, R187 to R190). -/
inductive MemMode where
  /-- `zp` (R174). -/
  | zp (z : Byte)
  /-- `zp,X` (R175). -/
  | zpX (z : Byte)
  /-- `zp,Y` (R176). -/
  | zpY (z : Byte)
  /-- `abs` (R177). -/
  | abs (w : Word)
  /-- `abs,X` (R178). -/
  | absX (w : Word)
  /-- `abs,Y` (R179). -/
  | absY (w : Word)
  /-- `(zp,X)` (R180). -/
  | izpX (z : Byte)
  /-- `(zp),Y` (R181). -/
  | izpY (z : Byte)
  /-- `(zp)` (R182). -/
  | izp (z : Byte)
  /-- `r,S` (R187). -/
  | sr (o : Byte)
  /-- `(r,S),Y` (R188). -/
  | isrY (o : Byte)
  /-- `r,R` (R189). -/
  | rr (o : Byte)
  /-- `(r,R),Y` (R190). -/
  | irrY (o : Byte)
deriving DecidableEq, Repr

/-- The 22 addressing modes (40_addressing.md R170), with their operand bytes. -/
inductive Operand where
  /-- No operand (R171). -/
  | implied
  /-- `A` (R172). -/
  | acc
  /-- `#imm` of width `wM` (R173). -/
  | immM (v : Word)
  /-- `#imm` of width `wX` (R173). -/
  | immX (v : Word)
  /-- `#imm8` (R173). -/
  | imm8 (k : Byte)
  /-- A mode that yields an effective address. -/
  | mem (m : MemMode)
  /-- `(abs)` (R183). -/
  | iabs (w : Word)
  /-- `(abs,X)` (R184). -/
  | iabsX (w : Word)
  /-- `rel` (R185). -/
  | rel (b : Byte)
  /-- `rel16` (R186). -/
  | rel16 (w : Word)
deriving DecidableEq, Repr

/-- A source operand that is an immediate or in memory (40_addressing.md R196). -/
inductive Src where
  | imm (v : Word)
  | mem (m : MemMode)
deriving DecidableEq, Repr

/-- A place an instruction both reads and writes: the accumulator or memory (40_addressing.md R197, R198). -/
inductive Loc where
  | acc
  | mem (m : MemMode)
deriving DecidableEq, Repr

/-- The operations: the mnemonics of opcode_table.json (30_encoding.md R132). -/
inductive Op where
  | brk | ora | nxt | tsb | asl | php | rhi | mul | bpl | trb | clc | inc | rhx | jsr | and | ent | bit | rol
  | plp | rli | bmi | sec | dec | rlx | rti | eor | nxa | rea | lsr | pha | rha | jmp | div | bvc | rei | cli
  | phy | rhy | txi | rts | adc | per | stz | ror | pla | rla | bvs | sei | ply | rly | bra | sta | rer | sty
  | stx | dey | txa | txr | zea | bcc | tya | txs | txy | sea | ldy | lda | ldx | tay | tax | trx | tda | bcs
  | clv | tsx | tyx | tad | cpy | cmp | rep | iny | dex | wai | pld | bne | pei | cld | phx | stp | tix | phd
  | cpx | sbc | sep | inx | nop | xba | mmu | beq | pea | sed | plx | xce | illegal
deriving DecidableEq, Repr

/-- The instructions. Each constructor is one row of opcode_table.json, named by its mnemonic and, where the mnemonic has
several rows, its addressing mode; the docstring gives the opcode byte, the assembly form and the rule. The argument is
the operand: a byte or a word as the instruction holds it; an immediate of variable width is a word, zero-extended when
the width is 8 (log entry 19). The rows with an operand stand first, then those without, each in opcode order. -/
inductive Instr where
  /-- 0x01 ORA (zp,X): R210. -/
  | oraIzpX (z : Byte)
  /-- 0x03 ORA r,S: R210. -/
  | oraSr (o : Byte)
  /-- 0x04 TSB zp: R220. -/
  | tsbZp (z : Byte)
  /-- 0x05 ORA zp: R210. -/
  | oraZp (z : Byte)
  /-- 0x06 ASL zp: R240. -/
  | aslZp (z : Byte)
  /-- 0x07 ORA r,R: R210. -/
  | oraRr (o : Byte)
  /-- 0x09 ORA #imm: R210. -/
  | oraImmM (v : Word)
  /-- 0x0C TSB abs: R220. -/
  | tsbAbs (w : Word)
  /-- 0x0D ORA abs: R210. -/
  | oraAbs (w : Word)
  /-- 0x0E ASL abs: R240. -/
  | aslAbs (w : Word)
  /-- 0x0F MUL zp: R430. -/
  | mulZp (z : Byte)
  /-- 0x10 BPL rel: R311. -/
  | bpl (b : Byte)
  /-- 0x11 ORA (zp),Y: R210. -/
  | oraIzpY (z : Byte)
  /-- 0x12 ORA (zp): R210. -/
  | oraIzp (z : Byte)
  /-- 0x13 ORA (r,S),Y: R210. -/
  | oraIsrY (o : Byte)
  /-- 0x14 TRB zp: R221. -/
  | trbZp (z : Byte)
  /-- 0x15 ORA zp,X: R210. -/
  | oraZpX (z : Byte)
  /-- 0x16 ASL zp,X: R240. -/
  | aslZpX (z : Byte)
  /-- 0x17 ORA (r,R),Y: R210. -/
  | oraIrrY (o : Byte)
  /-- 0x19 ORA abs,Y: R210. -/
  | oraAbsY (w : Word)
  /-- 0x1C TRB abs: R221. -/
  | trbAbs (w : Word)
  /-- 0x1D ORA abs,X: R210. -/
  | oraAbsX (w : Word)
  /-- 0x1E ASL abs,X: R240. -/
  | aslAbsX (w : Word)
  /-- 0x1F MUL zp,X: R430. -/
  | mulZpX (z : Byte)
  /-- 0x20 JSR abs: R321. -/
  | jsrAbs (w : Word)
  /-- 0x21 AND (zp,X): R211. -/
  | andIzpX (z : Byte)
  /-- 0x22 ENT abs: R393. -/
  | ent (w : Word)
  /-- 0x23 AND r,S: R211. -/
  | andSr (o : Byte)
  /-- 0x24 BIT zp: R219. -/
  | bitZp (z : Byte)
  /-- 0x25 AND zp: R211. -/
  | andZp (z : Byte)
  /-- 0x26 ROL zp: R242. -/
  | rolZp (z : Byte)
  /-- 0x27 AND r,R: R211. -/
  | andRr (o : Byte)
  /-- 0x29 AND #imm: R211. -/
  | andImmM (v : Word)
  /-- 0x2C BIT abs: R219. -/
  | bitAbs (w : Word)
  /-- 0x2D AND abs: R211. -/
  | andAbs (w : Word)
  /-- 0x2E ROL abs: R242. -/
  | rolAbs (w : Word)
  /-- 0x2F MUL abs: R430. -/
  | mulAbs (w : Word)
  /-- 0x30 BMI rel: R312. -/
  | bmi (b : Byte)
  /-- 0x31 AND (zp),Y: R211. -/
  | andIzpY (z : Byte)
  /-- 0x32 AND (zp): R211. -/
  | andIzp (z : Byte)
  /-- 0x33 AND (r,S),Y: R211. -/
  | andIsrY (o : Byte)
  /-- 0x34 BIT zp,X: R219. -/
  | bitZpX (z : Byte)
  /-- 0x35 AND zp,X: R211. -/
  | andZpX (z : Byte)
  /-- 0x36 ROL zp,X: R242. -/
  | rolZpX (z : Byte)
  /-- 0x37 AND (r,R),Y: R211. -/
  | andIrrY (o : Byte)
  /-- 0x39 AND abs,Y: R211. -/
  | andAbsY (w : Word)
  /-- 0x3C BIT abs,X: R219. -/
  | bitAbsX (w : Word)
  /-- 0x3D AND abs,X: R211. -/
  | andAbsX (w : Word)
  /-- 0x3E ROL abs,X: R242. -/
  | rolAbsX (w : Word)
  /-- 0x3F MUL abs,X: R430. -/
  | mulAbsX (w : Word)
  /-- 0x41 EOR (zp,X): R212. -/
  | eorIzpX (z : Byte)
  /-- 0x43 EOR r,S: R212. -/
  | eorSr (o : Byte)
  /-- 0x44 REA abs: R396. -/
  | rea (w : Word)
  /-- 0x45 EOR zp: R212. -/
  | eorZp (z : Byte)
  /-- 0x46 LSR zp: R241. -/
  | lsrZp (z : Byte)
  /-- 0x47 EOR r,R: R212. -/
  | eorRr (o : Byte)
  /-- 0x49 EOR #imm: R212. -/
  | eorImmM (v : Word)
  /-- 0x4C JMP abs: R320. -/
  | jmpAbs (w : Word)
  /-- 0x4D EOR abs: R212. -/
  | eorAbs (w : Word)
  /-- 0x4E LSR abs: R241. -/
  | lsrAbs (w : Word)
  /-- 0x4F DIV zp: R431. -/
  | divZp (z : Byte)
  /-- 0x50 BVC rel: R313. -/
  | bvc (b : Byte)
  /-- 0x51 EOR (zp),Y: R212. -/
  | eorIzpY (z : Byte)
  /-- 0x52 EOR (zp): R212. -/
  | eorIzp (z : Byte)
  /-- 0x53 EOR (r,S),Y: R212. -/
  | eorIsrY (o : Byte)
  /-- 0x54 REI (zp): R397. -/
  | rei (z : Byte)
  /-- 0x55 EOR zp,X: R212. -/
  | eorZpX (z : Byte)
  /-- 0x56 LSR zp,X: R241. -/
  | lsrZpX (z : Byte)
  /-- 0x57 EOR (r,R),Y: R212. -/
  | eorIrrY (o : Byte)
  /-- 0x59 EOR abs,Y: R212. -/
  | eorAbsY (w : Word)
  /-- 0x5D EOR abs,X: R212. -/
  | eorAbsX (w : Word)
  /-- 0x5E LSR abs,X: R241. -/
  | lsrAbsX (w : Word)
  /-- 0x5F DIV zp,X: R431. -/
  | divZpX (z : Byte)
  /-- 0x61 ADC (zp,X): R213. -/
  | adcIzpX (z : Byte)
  /-- 0x62 PER rel16: R363. -/
  | per (w : Word)
  /-- 0x63 ADC r,S: R213. -/
  | adcSr (o : Byte)
  /-- 0x64 STZ zp: R276. -/
  | stzZp (z : Byte)
  /-- 0x65 ADC zp: R213. -/
  | adcZp (z : Byte)
  /-- 0x66 ROR zp: R243. -/
  | rorZp (z : Byte)
  /-- 0x67 ADC r,R: R213. -/
  | adcRr (o : Byte)
  /-- 0x69 ADC #imm: R213. -/
  | adcImmM (v : Word)
  /-- 0x6C JMP (abs): R320. -/
  | jmpIabs (w : Word)
  /-- 0x6D ADC abs: R213. -/
  | adcAbs (w : Word)
  /-- 0x6E ROR abs: R243. -/
  | rorAbs (w : Word)
  /-- 0x6F DIV abs: R431. -/
  | divAbs (w : Word)
  /-- 0x70 BVS rel: R314. -/
  | bvs (b : Byte)
  /-- 0x71 ADC (zp),Y: R213. -/
  | adcIzpY (z : Byte)
  /-- 0x72 ADC (zp): R213. -/
  | adcIzp (z : Byte)
  /-- 0x73 ADC (r,S),Y: R213. -/
  | adcIsrY (o : Byte)
  /-- 0x74 STZ zp,X: R276. -/
  | stzZpX (z : Byte)
  /-- 0x75 ADC zp,X: R213. -/
  | adcZpX (z : Byte)
  /-- 0x76 ROR zp,X: R243. -/
  | rorZpX (z : Byte)
  /-- 0x77 ADC (r,R),Y: R213. -/
  | adcIrrY (o : Byte)
  /-- 0x79 ADC abs,Y: R213. -/
  | adcAbsY (w : Word)
  /-- 0x7C JMP (abs,X): R320. -/
  | jmpIabsX (w : Word)
  /-- 0x7D ADC abs,X: R213. -/
  | adcAbsX (w : Word)
  /-- 0x7E ROR abs,X: R243. -/
  | rorAbsX (w : Word)
  /-- 0x7F DIV abs,X: R431. -/
  | divAbsX (w : Word)
  /-- 0x80 BRA rel: R319. -/
  | bra (b : Byte)
  /-- 0x81 STA (zp,X): R273. -/
  | staIzpX (z : Byte)
  /-- 0x82 RER rel16: R398. -/
  | rer (w : Word)
  /-- 0x83 STA r,S: R273. -/
  | staSr (o : Byte)
  /-- 0x84 STY zp: R275. -/
  | styZp (z : Byte)
  /-- 0x85 STA zp: R273. -/
  | staZp (z : Byte)
  /-- 0x86 STX zp: R274. -/
  | stxZp (z : Byte)
  /-- 0x87 STA r,R: R273. -/
  | staRr (o : Byte)
  /-- 0x89 BIT #imm: R219. -/
  | bitImmM (v : Word)
  /-- 0x8C STY abs: R275. -/
  | styAbs (w : Word)
  /-- 0x8D STA abs: R273. -/
  | staAbs (w : Word)
  /-- 0x8E STX abs: R274. -/
  | stxAbs (w : Word)
  /-- 0x90 BCC rel: R315. -/
  | bcc (b : Byte)
  /-- 0x91 STA (zp),Y: R273. -/
  | staIzpY (z : Byte)
  /-- 0x92 STA (zp): R273. -/
  | staIzp (z : Byte)
  /-- 0x93 STA (r,S),Y: R273. -/
  | staIsrY (o : Byte)
  /-- 0x94 STY zp,X: R275. -/
  | styZpX (z : Byte)
  /-- 0x95 STA zp,X: R273. -/
  | staZpX (z : Byte)
  /-- 0x96 STX zp,Y: R274. -/
  | stxZpY (z : Byte)
  /-- 0x97 STA (r,R),Y: R273. -/
  | staIrrY (o : Byte)
  /-- 0x99 STA abs,Y: R273. -/
  | staAbsY (w : Word)
  /-- 0x9C STZ abs: R276. -/
  | stzAbs (w : Word)
  /-- 0x9D STA abs,X: R273. -/
  | staAbsX (w : Word)
  /-- 0x9E STZ abs,X: R276. -/
  | stzAbsX (w : Word)
  /-- 0xA0 LDY #imm: R272. -/
  | ldyImmX (v : Word)
  /-- 0xA1 LDA (zp,X): R270. -/
  | ldaIzpX (z : Byte)
  /-- 0xA2 LDX #imm: R271. -/
  | ldxImmX (v : Word)
  /-- 0xA3 LDA r,S: R270. -/
  | ldaSr (o : Byte)
  /-- 0xA4 LDY zp: R272. -/
  | ldyZp (z : Byte)
  /-- 0xA5 LDA zp: R270. -/
  | ldaZp (z : Byte)
  /-- 0xA6 LDX zp: R271. -/
  | ldxZp (z : Byte)
  /-- 0xA7 LDA r,R: R270. -/
  | ldaRr (o : Byte)
  /-- 0xA9 LDA #imm: R270. -/
  | ldaImmM (v : Word)
  /-- 0xAC LDY abs: R272. -/
  | ldyAbs (w : Word)
  /-- 0xAD LDA abs: R270. -/
  | ldaAbs (w : Word)
  /-- 0xAE LDX abs: R271. -/
  | ldxAbs (w : Word)
  /-- 0xB0 BCS rel: R316. -/
  | bcs (b : Byte)
  /-- 0xB1 LDA (zp),Y: R270. -/
  | ldaIzpY (z : Byte)
  /-- 0xB2 LDA (zp): R270. -/
  | ldaIzp (z : Byte)
  /-- 0xB3 LDA (r,S),Y: R270. -/
  | ldaIsrY (o : Byte)
  /-- 0xB4 LDY zp,X: R272. -/
  | ldyZpX (z : Byte)
  /-- 0xB5 LDA zp,X: R270. -/
  | ldaZpX (z : Byte)
  /-- 0xB6 LDX zp,Y: R271. -/
  | ldxZpY (z : Byte)
  /-- 0xB7 LDA (r,R),Y: R270. -/
  | ldaIrrY (o : Byte)
  /-- 0xB9 LDA abs,Y: R270. -/
  | ldaAbsY (w : Word)
  /-- 0xBC LDY abs,X: R272. -/
  | ldyAbsX (w : Word)
  /-- 0xBD LDA abs,X: R270. -/
  | ldaAbsX (w : Word)
  /-- 0xBE LDX abs,Y: R271. -/
  | ldxAbsY (w : Word)
  /-- 0xC0 CPY #imm: R224. -/
  | cpyImmX (v : Word)
  /-- 0xC1 CMP (zp,X): R222. -/
  | cmpIzpX (z : Byte)
  /-- 0xC2 REP #imm8: R410. -/
  | rep (k : Byte)
  /-- 0xC3 CMP r,S: R222. -/
  | cmpSr (o : Byte)
  /-- 0xC4 CPY zp: R224. -/
  | cpyZp (z : Byte)
  /-- 0xC5 CMP zp: R222. -/
  | cmpZp (z : Byte)
  /-- 0xC6 DEC zp: R245. -/
  | decZp (z : Byte)
  /-- 0xC7 CMP r,R: R222. -/
  | cmpRr (o : Byte)
  /-- 0xC9 CMP #imm: R222. -/
  | cmpImmM (v : Word)
  /-- 0xCC CPY abs: R224. -/
  | cpyAbs (w : Word)
  /-- 0xCD CMP abs: R222. -/
  | cmpAbs (w : Word)
  /-- 0xCE DEC abs: R245. -/
  | decAbs (w : Word)
  /-- 0xD0 BNE rel: R317. -/
  | bne (b : Byte)
  /-- 0xD1 CMP (zp),Y: R222. -/
  | cmpIzpY (z : Byte)
  /-- 0xD2 CMP (zp): R222. -/
  | cmpIzp (z : Byte)
  /-- 0xD3 CMP (r,S),Y: R222. -/
  | cmpIsrY (o : Byte)
  /-- 0xD4 PEI (zp): R362. -/
  | pei (z : Byte)
  /-- 0xD5 CMP zp,X: R222. -/
  | cmpZpX (z : Byte)
  /-- 0xD6 DEC zp,X: R245. -/
  | decZpX (z : Byte)
  /-- 0xD7 CMP (r,R),Y: R222. -/
  | cmpIrrY (o : Byte)
  /-- 0xD9 CMP abs,Y: R222. -/
  | cmpAbsY (w : Word)
  /-- 0xDD CMP abs,X: R222. -/
  | cmpAbsX (w : Word)
  /-- 0xDE DEC abs,X: R245. -/
  | decAbsX (w : Word)
  /-- 0xE0 CPX #imm: R223. -/
  | cpxImmX (v : Word)
  /-- 0xE1 SBC (zp,X): R216. -/
  | sbcIzpX (z : Byte)
  /-- 0xE2 SEP #imm8: R411. -/
  | sep (k : Byte)
  /-- 0xE3 SBC r,S: R216. -/
  | sbcSr (o : Byte)
  /-- 0xE4 CPX zp: R223. -/
  | cpxZp (z : Byte)
  /-- 0xE5 SBC zp: R216. -/
  | sbcZp (z : Byte)
  /-- 0xE6 INC zp: R244. -/
  | incZp (z : Byte)
  /-- 0xE7 SBC r,R: R216. -/
  | sbcRr (o : Byte)
  /-- 0xE9 SBC #imm: R216. -/
  | sbcImmM (v : Word)
  /-- 0xEC CPX abs: R223. -/
  | cpxAbs (w : Word)
  /-- 0xED SBC abs: R216. -/
  | sbcAbs (w : Word)
  /-- 0xEE INC abs: R244. -/
  | incAbs (w : Word)
  /-- 0xEF MMU #imm8: R452. -/
  | mmu (k : Byte)
  /-- 0xF0 BEQ rel: R318. -/
  | beq (b : Byte)
  /-- 0xF1 SBC (zp),Y: R216. -/
  | sbcIzpY (z : Byte)
  /-- 0xF2 SBC (zp): R216. -/
  | sbcIzp (z : Byte)
  /-- 0xF3 SBC (r,S),Y: R216. -/
  | sbcIsrY (o : Byte)
  /-- 0xF4 PEA abs: R361. -/
  | pea (w : Word)
  /-- 0xF5 SBC zp,X: R216. -/
  | sbcZpX (z : Byte)
  /-- 0xF6 INC zp,X: R244. -/
  | incZpX (z : Byte)
  /-- 0xF7 SBC (r,R),Y: R216. -/
  | sbcIrrY (o : Byte)
  /-- 0xF9 SBC abs,Y: R216. -/
  | sbcAbsY (w : Word)
  /-- 0xFC JSR (abs,X): R321. -/
  | jsrIabsX (w : Word)
  /-- 0xFD SBC abs,X: R216. -/
  | sbcAbsX (w : Word)
  /-- 0xFE INC abs,X: R244. -/
  | incAbsX (w : Word)
  /-- 0x00 BRK: R324. -/
  | brk
  /-- 0x02 NXT: R394. -/
  | nxt
  /-- 0x08 PHP: R357. -/
  | php
  /-- 0x0A ASL A: R240. -/
  | aslAcc
  /-- 0x0B RHI: R387. -/
  | rhi
  /-- 0x18 CLC: R285. -/
  | clc
  /-- 0x1A INC A: R244. -/
  | incAcc
  /-- 0x1B RHX: R383. -/
  | rhx
  /-- 0x28 PLP: R358. -/
  | plp
  /-- 0x2A ROL A: R242. -/
  | rolAcc
  /-- 0x2B RLI: R388. -/
  | rli
  /-- 0x38 SEC: R286. -/
  | sec
  /-- 0x3A DEC A: R245. -/
  | decAcc
  /-- 0x3B RLX: R384. -/
  | rlx
  /-- 0x40 RTI: R323. -/
  | rti
  /-- 0x42 NXA: R395. -/
  | nxa
  /-- 0x48 PHA: R351. -/
  | pha
  /-- 0x4A LSR A: R241. -/
  | lsrAcc
  /-- 0x4B RHA: R381. -/
  | rha
  /-- 0x58 CLI: R287. -/
  | cli
  /-- 0x5A PHY: R355. -/
  | phy
  /-- 0x5B RHY: R385. -/
  | rhy
  /-- 0x5C TXI: R391. -/
  | txi
  /-- 0x60 RTS: R322. -/
  | rts
  /-- 0x68 PLA: R352. -/
  | pla
  /-- 0x6A ROR A: R243. -/
  | rorAcc
  /-- 0x6B RLA: R382. -/
  | rla
  /-- 0x78 SEI: R288. -/
  | sei
  /-- 0x7A PLY: R356. -/
  | ply
  /-- 0x7B RLY: R386. -/
  | rly
  /-- 0x88 DEY: R249. -/
  | dey
  /-- 0x8A TXA: R279. -/
  | txa
  /-- 0x8B TXR: R389. -/
  | txr
  /-- 0x8F ZEA: R432. -/
  | zea
  /-- 0x98 TYA: R280. -/
  | tya
  /-- 0x9A TXS: R284. -/
  | txs
  /-- 0x9B TXY: R281. -/
  | txy
  /-- 0x9F SEA: R433. -/
  | sea
  /-- 0xA8 TAY: R278. -/
  | tay
  /-- 0xAA TAX: R277. -/
  | tax
  /-- 0xAB TRX: R390. -/
  | trx
  /-- 0xAF TDA: R435. -/
  | tda
  /-- 0xB8 CLV: R291. -/
  | clv
  /-- 0xBA TSX: R283. -/
  | tsx
  /-- 0xBB TYX: R282. -/
  | tyx
  /-- 0xBF TAD: R434. -/
  | tad
  /-- 0xC8 INY: R247. -/
  | iny
  /-- 0xCA DEX: R248. -/
  | dex
  /-- 0xCB WAI: R451. -/
  | wai
  /-- 0xCF PLD: R360. -/
  | pld
  /-- 0xD8 CLD: R289. -/
  | cld
  /-- 0xDA PHX: R353. -/
  | phx
  /-- 0xDB STP: R450. -/
  | stp
  /-- 0xDC TIX: R392. -/
  | tix
  /-- 0xDF PHD: R359. -/
  | phd
  /-- 0xE8 INX: R246. -/
  | inx
  /-- 0xEA NOP: R292. -/
  | nop
  /-- 0xEB XBA: R413. -/
  | xba
  /-- 0xF8 SED: R290. -/
  | sed
  /-- 0xFA PLX: R354. -/
  | plx
  /-- 0xFB XCE: R412. -/
  | xce
  /-- 0xFF illegal opcode: R454. -/
  | illegal
deriving DecidableEq, Repr

end Sys2Proof
end

