-- ==== Sys2Proof/WellFormed.lean ====
section
/-! DEFINITION. Which instructions are well-formed: an immediate fits the width its instruction is decoded at
(30_encoding.md R134). Every other operand value is legal (30_encoding.md R137). -/

namespace Sys2Proof

/-- Whether a value fits an operand width. -/
def Width.fits (w : Width) (v : Word) : Bool := v.toNat < 2 ^ w.bits

/-- Whether an instruction's operand fits the accumulator width `wM` and the index width `wX`. -/
def Instr.wf (wM wX : Width) : Instr → Bool
  | .oraImmM v | .andImmM v | .eorImmM v | .adcImmM v => wM.fits v
  | .bitImmM v | .ldaImmM v | .cmpImmM v | .sbcImmM v => wM.fits v
  | .ldyImmX v | .ldxImmX v | .cpyImmX v | .cpxImmX v => wX.fits v
  | _ => true

end Sys2Proof
end

