-- ==== Sys2Proof/Decode.lean ====
section
/-! DEFINITION. Words and bytes, the instruction ROM, the decoder and the encoder (30_encoding.md). -/

namespace Sys2Proof

/-! ## Bytes and words -/

/-- The word of a low and a high byte, little-endian: `lo | (hi << 8)` (20_memory.md R97). -/
def mkWord (lo hi : Byte) : Word := hi ++ lo

/-- The low byte `v[7:0]`. -/
def loByte (v : Word) : Byte := v.setWidth 8

/-- The high byte `v[15:8]`. -/
def hiByte (v : Word) : Byte := (v >>> 8).setWidth 8

/-- `zext_16` of a byte (00_scope.md R10). -/
def zext (b : Byte) : Word := b.setWidth 16

/-- `sext_16` of a byte (00_scope.md R10). -/
def sext (b : Byte) : Word := b.signExtend 16

/-! ## The instruction ROM: what each row of the table says of its opcode (30_encoding.md R132) -/

/-- The operation of an instruction, the ROM's `op`. -/
def Instr.op : Instr → Op
  | .brk => .brk
  | .oraIzpX _ => .ora
  | .nxt => .nxt
  | .oraSr _ => .ora
  | .tsbZp _ => .tsb
  | .oraZp _ => .ora
  | .aslZp _ => .asl
  | .oraRr _ => .ora
  | .php => .php
  | .oraImmM _ => .ora
  | .aslAcc => .asl
  | .rhi => .rhi
  | .tsbAbs _ => .tsb
  | .oraAbs _ => .ora
  | .aslAbs _ => .asl
  | .mulZp _ => .mul
  | .bpl _ => .bpl
  | .oraIzpY _ => .ora
  | .oraIzp _ => .ora
  | .oraIsrY _ => .ora
  | .trbZp _ => .trb
  | .oraZpX _ => .ora
  | .aslZpX _ => .asl
  | .oraIrrY _ => .ora
  | .clc => .clc
  | .oraAbsY _ => .ora
  | .incAcc => .inc
  | .rhx => .rhx
  | .trbAbs _ => .trb
  | .oraAbsX _ => .ora
  | .aslAbsX _ => .asl
  | .mulZpX _ => .mul
  | .jsrAbs _ => .jsr
  | .andIzpX _ => .and
  | .ent _ => .ent
  | .andSr _ => .and
  | .bitZp _ => .bit
  | .andZp _ => .and
  | .rolZp _ => .rol
  | .andRr _ => .and
  | .plp => .plp
  | .andImmM _ => .and
  | .rolAcc => .rol
  | .rli => .rli
  | .bitAbs _ => .bit
  | .andAbs _ => .and
  | .rolAbs _ => .rol
  | .mulAbs _ => .mul
  | .bmi _ => .bmi
  | .andIzpY _ => .and
  | .andIzp _ => .and
  | .andIsrY _ => .and
  | .bitZpX _ => .bit
  | .andZpX _ => .and
  | .rolZpX _ => .rol
  | .andIrrY _ => .and
  | .sec => .sec
  | .andAbsY _ => .and
  | .decAcc => .dec
  | .rlx => .rlx
  | .bitAbsX _ => .bit
  | .andAbsX _ => .and
  | .rolAbsX _ => .rol
  | .mulAbsX _ => .mul
  | .rti => .rti
  | .eorIzpX _ => .eor
  | .nxa => .nxa
  | .eorSr _ => .eor
  | .rea _ => .rea
  | .eorZp _ => .eor
  | .lsrZp _ => .lsr
  | .eorRr _ => .eor
  | .pha => .pha
  | .eorImmM _ => .eor
  | .lsrAcc => .lsr
  | .rha => .rha
  | .jmpAbs _ => .jmp
  | .eorAbs _ => .eor
  | .lsrAbs _ => .lsr
  | .divZp _ => .div
  | .bvc _ => .bvc
  | .eorIzpY _ => .eor
  | .eorIzp _ => .eor
  | .eorIsrY _ => .eor
  | .rei _ => .rei
  | .eorZpX _ => .eor
  | .lsrZpX _ => .lsr
  | .eorIrrY _ => .eor
  | .cli => .cli
  | .eorAbsY _ => .eor
  | .phy => .phy
  | .rhy => .rhy
  | .txi => .txi
  | .eorAbsX _ => .eor
  | .lsrAbsX _ => .lsr
  | .divZpX _ => .div
  | .rts => .rts
  | .adcIzpX _ => .adc
  | .per _ => .per
  | .adcSr _ => .adc
  | .stzZp _ => .stz
  | .adcZp _ => .adc
  | .rorZp _ => .ror
  | .adcRr _ => .adc
  | .pla => .pla
  | .adcImmM _ => .adc
  | .rorAcc => .ror
  | .rla => .rla
  | .jmpIabs _ => .jmp
  | .adcAbs _ => .adc
  | .rorAbs _ => .ror
  | .divAbs _ => .div
  | .bvs _ => .bvs
  | .adcIzpY _ => .adc
  | .adcIzp _ => .adc
  | .adcIsrY _ => .adc
  | .stzZpX _ => .stz
  | .adcZpX _ => .adc
  | .rorZpX _ => .ror
  | .adcIrrY _ => .adc
  | .sei => .sei
  | .adcAbsY _ => .adc
  | .ply => .ply
  | .rly => .rly
  | .jmpIabsX _ => .jmp
  | .adcAbsX _ => .adc
  | .rorAbsX _ => .ror
  | .divAbsX _ => .div
  | .bra _ => .bra
  | .staIzpX _ => .sta
  | .rer _ => .rer
  | .staSr _ => .sta
  | .styZp _ => .sty
  | .staZp _ => .sta
  | .stxZp _ => .stx
  | .staRr _ => .sta
  | .dey => .dey
  | .bitImmM _ => .bit
  | .txa => .txa
  | .txr => .txr
  | .styAbs _ => .sty
  | .staAbs _ => .sta
  | .stxAbs _ => .stx
  | .zea => .zea
  | .bcc _ => .bcc
  | .staIzpY _ => .sta
  | .staIzp _ => .sta
  | .staIsrY _ => .sta
  | .styZpX _ => .sty
  | .staZpX _ => .sta
  | .stxZpY _ => .stx
  | .staIrrY _ => .sta
  | .tya => .tya
  | .staAbsY _ => .sta
  | .txs => .txs
  | .txy => .txy
  | .stzAbs _ => .stz
  | .staAbsX _ => .sta
  | .stzAbsX _ => .stz
  | .sea => .sea
  | .ldyImmX _ => .ldy
  | .ldaIzpX _ => .lda
  | .ldxImmX _ => .ldx
  | .ldaSr _ => .lda
  | .ldyZp _ => .ldy
  | .ldaZp _ => .lda
  | .ldxZp _ => .ldx
  | .ldaRr _ => .lda
  | .tay => .tay
  | .ldaImmM _ => .lda
  | .tax => .tax
  | .trx => .trx
  | .ldyAbs _ => .ldy
  | .ldaAbs _ => .lda
  | .ldxAbs _ => .ldx
  | .tda => .tda
  | .bcs _ => .bcs
  | .ldaIzpY _ => .lda
  | .ldaIzp _ => .lda
  | .ldaIsrY _ => .lda
  | .ldyZpX _ => .ldy
  | .ldaZpX _ => .lda
  | .ldxZpY _ => .ldx
  | .ldaIrrY _ => .lda
  | .clv => .clv
  | .ldaAbsY _ => .lda
  | .tsx => .tsx
  | .tyx => .tyx
  | .ldyAbsX _ => .ldy
  | .ldaAbsX _ => .lda
  | .ldxAbsY _ => .ldx
  | .tad => .tad
  | .cpyImmX _ => .cpy
  | .cmpIzpX _ => .cmp
  | .rep _ => .rep
  | .cmpSr _ => .cmp
  | .cpyZp _ => .cpy
  | .cmpZp _ => .cmp
  | .decZp _ => .dec
  | .cmpRr _ => .cmp
  | .iny => .iny
  | .cmpImmM _ => .cmp
  | .dex => .dex
  | .wai => .wai
  | .cpyAbs _ => .cpy
  | .cmpAbs _ => .cmp
  | .decAbs _ => .dec
  | .pld => .pld
  | .bne _ => .bne
  | .cmpIzpY _ => .cmp
  | .cmpIzp _ => .cmp
  | .cmpIsrY _ => .cmp
  | .pei _ => .pei
  | .cmpZpX _ => .cmp
  | .decZpX _ => .dec
  | .cmpIrrY _ => .cmp
  | .cld => .cld
  | .cmpAbsY _ => .cmp
  | .phx => .phx
  | .stp => .stp
  | .tix => .tix
  | .cmpAbsX _ => .cmp
  | .decAbsX _ => .dec
  | .phd => .phd
  | .cpxImmX _ => .cpx
  | .sbcIzpX _ => .sbc
  | .sep _ => .sep
  | .sbcSr _ => .sbc
  | .cpxZp _ => .cpx
  | .sbcZp _ => .sbc
  | .incZp _ => .inc
  | .sbcRr _ => .sbc
  | .inx => .inx
  | .sbcImmM _ => .sbc
  | .nop => .nop
  | .xba => .xba
  | .cpxAbs _ => .cpx
  | .sbcAbs _ => .sbc
  | .incAbs _ => .inc
  | .mmu _ => .mmu
  | .beq _ => .beq
  | .sbcIzpY _ => .sbc
  | .sbcIzp _ => .sbc
  | .sbcIsrY _ => .sbc
  | .pea _ => .pea
  | .sbcZpX _ => .sbc
  | .incZpX _ => .inc
  | .sbcIrrY _ => .sbc
  | .sed => .sed
  | .sbcAbsY _ => .sbc
  | .plx => .plx
  | .xce => .xce
  | .jsrIabsX _ => .jsr
  | .sbcAbsX _ => .sbc
  | .incAbsX _ => .inc
  | .illegal => .illegal

/-- The addressing mode of an instruction with its operand bytes, the ROM's `mode`. -/
def Instr.operand : Instr → Operand
  | .brk => .implied
  | .oraIzpX z => .mem (.izpX z)
  | .nxt => .implied
  | .oraSr o => .mem (.sr o)
  | .tsbZp z => .mem (.zp z)
  | .oraZp z => .mem (.zp z)
  | .aslZp z => .mem (.zp z)
  | .oraRr o => .mem (.rr o)
  | .php => .implied
  | .oraImmM v => .immM v
  | .aslAcc => .acc
  | .rhi => .implied
  | .tsbAbs w => .mem (.abs w)
  | .oraAbs w => .mem (.abs w)
  | .aslAbs w => .mem (.abs w)
  | .mulZp z => .mem (.zp z)
  | .bpl b => .rel b
  | .oraIzpY z => .mem (.izpY z)
  | .oraIzp z => .mem (.izp z)
  | .oraIsrY o => .mem (.isrY o)
  | .trbZp z => .mem (.zp z)
  | .oraZpX z => .mem (.zpX z)
  | .aslZpX z => .mem (.zpX z)
  | .oraIrrY o => .mem (.irrY o)
  | .clc => .implied
  | .oraAbsY w => .mem (.absY w)
  | .incAcc => .acc
  | .rhx => .implied
  | .trbAbs w => .mem (.abs w)
  | .oraAbsX w => .mem (.absX w)
  | .aslAbsX w => .mem (.absX w)
  | .mulZpX z => .mem (.zpX z)
  | .jsrAbs w => .mem (.abs w)
  | .andIzpX z => .mem (.izpX z)
  | .ent w => .mem (.abs w)
  | .andSr o => .mem (.sr o)
  | .bitZp z => .mem (.zp z)
  | .andZp z => .mem (.zp z)
  | .rolZp z => .mem (.zp z)
  | .andRr o => .mem (.rr o)
  | .plp => .implied
  | .andImmM v => .immM v
  | .rolAcc => .acc
  | .rli => .implied
  | .bitAbs w => .mem (.abs w)
  | .andAbs w => .mem (.abs w)
  | .rolAbs w => .mem (.abs w)
  | .mulAbs w => .mem (.abs w)
  | .bmi b => .rel b
  | .andIzpY z => .mem (.izpY z)
  | .andIzp z => .mem (.izp z)
  | .andIsrY o => .mem (.isrY o)
  | .bitZpX z => .mem (.zpX z)
  | .andZpX z => .mem (.zpX z)
  | .rolZpX z => .mem (.zpX z)
  | .andIrrY o => .mem (.irrY o)
  | .sec => .implied
  | .andAbsY w => .mem (.absY w)
  | .decAcc => .acc
  | .rlx => .implied
  | .bitAbsX w => .mem (.absX w)
  | .andAbsX w => .mem (.absX w)
  | .rolAbsX w => .mem (.absX w)
  | .mulAbsX w => .mem (.absX w)
  | .rti => .implied
  | .eorIzpX z => .mem (.izpX z)
  | .nxa => .implied
  | .eorSr o => .mem (.sr o)
  | .rea w => .mem (.abs w)
  | .eorZp z => .mem (.zp z)
  | .lsrZp z => .mem (.zp z)
  | .eorRr o => .mem (.rr o)
  | .pha => .implied
  | .eorImmM v => .immM v
  | .lsrAcc => .acc
  | .rha => .implied
  | .jmpAbs w => .mem (.abs w)
  | .eorAbs w => .mem (.abs w)
  | .lsrAbs w => .mem (.abs w)
  | .divZp z => .mem (.zp z)
  | .bvc b => .rel b
  | .eorIzpY z => .mem (.izpY z)
  | .eorIzp z => .mem (.izp z)
  | .eorIsrY o => .mem (.isrY o)
  | .rei z => .mem (.izp z)
  | .eorZpX z => .mem (.zpX z)
  | .lsrZpX z => .mem (.zpX z)
  | .eorIrrY o => .mem (.irrY o)
  | .cli => .implied
  | .eorAbsY w => .mem (.absY w)
  | .phy => .implied
  | .rhy => .implied
  | .txi => .implied
  | .eorAbsX w => .mem (.absX w)
  | .lsrAbsX w => .mem (.absX w)
  | .divZpX z => .mem (.zpX z)
  | .rts => .implied
  | .adcIzpX z => .mem (.izpX z)
  | .per w => .rel16 w
  | .adcSr o => .mem (.sr o)
  | .stzZp z => .mem (.zp z)
  | .adcZp z => .mem (.zp z)
  | .rorZp z => .mem (.zp z)
  | .adcRr o => .mem (.rr o)
  | .pla => .implied
  | .adcImmM v => .immM v
  | .rorAcc => .acc
  | .rla => .implied
  | .jmpIabs w => .iabs w
  | .adcAbs w => .mem (.abs w)
  | .rorAbs w => .mem (.abs w)
  | .divAbs w => .mem (.abs w)
  | .bvs b => .rel b
  | .adcIzpY z => .mem (.izpY z)
  | .adcIzp z => .mem (.izp z)
  | .adcIsrY o => .mem (.isrY o)
  | .stzZpX z => .mem (.zpX z)
  | .adcZpX z => .mem (.zpX z)
  | .rorZpX z => .mem (.zpX z)
  | .adcIrrY o => .mem (.irrY o)
  | .sei => .implied
  | .adcAbsY w => .mem (.absY w)
  | .ply => .implied
  | .rly => .implied
  | .jmpIabsX w => .iabsX w
  | .adcAbsX w => .mem (.absX w)
  | .rorAbsX w => .mem (.absX w)
  | .divAbsX w => .mem (.absX w)
  | .bra b => .rel b
  | .staIzpX z => .mem (.izpX z)
  | .rer w => .rel16 w
  | .staSr o => .mem (.sr o)
  | .styZp z => .mem (.zp z)
  | .staZp z => .mem (.zp z)
  | .stxZp z => .mem (.zp z)
  | .staRr o => .mem (.rr o)
  | .dey => .implied
  | .bitImmM v => .immM v
  | .txa => .implied
  | .txr => .implied
  | .styAbs w => .mem (.abs w)
  | .staAbs w => .mem (.abs w)
  | .stxAbs w => .mem (.abs w)
  | .zea => .implied
  | .bcc b => .rel b
  | .staIzpY z => .mem (.izpY z)
  | .staIzp z => .mem (.izp z)
  | .staIsrY o => .mem (.isrY o)
  | .styZpX z => .mem (.zpX z)
  | .staZpX z => .mem (.zpX z)
  | .stxZpY z => .mem (.zpY z)
  | .staIrrY o => .mem (.irrY o)
  | .tya => .implied
  | .staAbsY w => .mem (.absY w)
  | .txs => .implied
  | .txy => .implied
  | .stzAbs w => .mem (.abs w)
  | .staAbsX w => .mem (.absX w)
  | .stzAbsX w => .mem (.absX w)
  | .sea => .implied
  | .ldyImmX v => .immX v
  | .ldaIzpX z => .mem (.izpX z)
  | .ldxImmX v => .immX v
  | .ldaSr o => .mem (.sr o)
  | .ldyZp z => .mem (.zp z)
  | .ldaZp z => .mem (.zp z)
  | .ldxZp z => .mem (.zp z)
  | .ldaRr o => .mem (.rr o)
  | .tay => .implied
  | .ldaImmM v => .immM v
  | .tax => .implied
  | .trx => .implied
  | .ldyAbs w => .mem (.abs w)
  | .ldaAbs w => .mem (.abs w)
  | .ldxAbs w => .mem (.abs w)
  | .tda => .implied
  | .bcs b => .rel b
  | .ldaIzpY z => .mem (.izpY z)
  | .ldaIzp z => .mem (.izp z)
  | .ldaIsrY o => .mem (.isrY o)
  | .ldyZpX z => .mem (.zpX z)
  | .ldaZpX z => .mem (.zpX z)
  | .ldxZpY z => .mem (.zpY z)
  | .ldaIrrY o => .mem (.irrY o)
  | .clv => .implied
  | .ldaAbsY w => .mem (.absY w)
  | .tsx => .implied
  | .tyx => .implied
  | .ldyAbsX w => .mem (.absX w)
  | .ldaAbsX w => .mem (.absX w)
  | .ldxAbsY w => .mem (.absY w)
  | .tad => .implied
  | .cpyImmX v => .immX v
  | .cmpIzpX z => .mem (.izpX z)
  | .rep k => .imm8 k
  | .cmpSr o => .mem (.sr o)
  | .cpyZp z => .mem (.zp z)
  | .cmpZp z => .mem (.zp z)
  | .decZp z => .mem (.zp z)
  | .cmpRr o => .mem (.rr o)
  | .iny => .implied
  | .cmpImmM v => .immM v
  | .dex => .implied
  | .wai => .implied
  | .cpyAbs w => .mem (.abs w)
  | .cmpAbs w => .mem (.abs w)
  | .decAbs w => .mem (.abs w)
  | .pld => .implied
  | .bne b => .rel b
  | .cmpIzpY z => .mem (.izpY z)
  | .cmpIzp z => .mem (.izp z)
  | .cmpIsrY o => .mem (.isrY o)
  | .pei z => .mem (.izp z)
  | .cmpZpX z => .mem (.zpX z)
  | .decZpX z => .mem (.zpX z)
  | .cmpIrrY o => .mem (.irrY o)
  | .cld => .implied
  | .cmpAbsY w => .mem (.absY w)
  | .phx => .implied
  | .stp => .implied
  | .tix => .implied
  | .cmpAbsX w => .mem (.absX w)
  | .decAbsX w => .mem (.absX w)
  | .phd => .implied
  | .cpxImmX v => .immX v
  | .sbcIzpX z => .mem (.izpX z)
  | .sep k => .imm8 k
  | .sbcSr o => .mem (.sr o)
  | .cpxZp z => .mem (.zp z)
  | .sbcZp z => .mem (.zp z)
  | .incZp z => .mem (.zp z)
  | .sbcRr o => .mem (.rr o)
  | .inx => .implied
  | .sbcImmM v => .immM v
  | .nop => .implied
  | .xba => .implied
  | .cpxAbs w => .mem (.abs w)
  | .sbcAbs w => .mem (.abs w)
  | .incAbs w => .mem (.abs w)
  | .mmu k => .imm8 k
  | .beq b => .rel b
  | .sbcIzpY z => .mem (.izpY z)
  | .sbcIzp z => .mem (.izp z)
  | .sbcIsrY o => .mem (.isrY o)
  | .pea w => .mem (.abs w)
  | .sbcZpX z => .mem (.zpX z)
  | .incZpX z => .mem (.zpX z)
  | .sbcIrrY o => .mem (.irrY o)
  | .sed => .implied
  | .sbcAbsY w => .mem (.absY w)
  | .plx => .implied
  | .xce => .implied
  | .jsrIabsX w => .iabsX w
  | .sbcAbsX w => .mem (.absX w)
  | .incAbsX w => .mem (.absX w)
  | .illegal => .implied

/-- The source operand of a mode that is an immediate or memory (40_addressing.md R196). -/
def Operand.src? : Operand → Option Src
  | .immM v | .immX v => some (.imm v)
  | .mem m => some (.mem m)
  | _ => none

/-- The place a mode names that is the accumulator or memory (40_addressing.md R197). -/
def Operand.loc? : Operand → Option Loc
  | .acc => some .acc
  | .mem m => some (.mem m)
  | _ => none

/-- The opcode byte of an instruction (30_encoding.md R136). -/
def Instr.opcode : Instr → Byte
  | .brk => 0x00
  | .oraIzpX _ => 0x01
  | .nxt => 0x02
  | .oraSr _ => 0x03
  | .tsbZp _ => 0x04
  | .oraZp _ => 0x05
  | .aslZp _ => 0x06
  | .oraRr _ => 0x07
  | .php => 0x08
  | .oraImmM _ => 0x09
  | .aslAcc => 0x0A
  | .rhi => 0x0B
  | .tsbAbs _ => 0x0C
  | .oraAbs _ => 0x0D
  | .aslAbs _ => 0x0E
  | .mulZp _ => 0x0F
  | .bpl _ => 0x10
  | .oraIzpY _ => 0x11
  | .oraIzp _ => 0x12
  | .oraIsrY _ => 0x13
  | .trbZp _ => 0x14
  | .oraZpX _ => 0x15
  | .aslZpX _ => 0x16
  | .oraIrrY _ => 0x17
  | .clc => 0x18
  | .oraAbsY _ => 0x19
  | .incAcc => 0x1A
  | .rhx => 0x1B
  | .trbAbs _ => 0x1C
  | .oraAbsX _ => 0x1D
  | .aslAbsX _ => 0x1E
  | .mulZpX _ => 0x1F
  | .jsrAbs _ => 0x20
  | .andIzpX _ => 0x21
  | .ent _ => 0x22
  | .andSr _ => 0x23
  | .bitZp _ => 0x24
  | .andZp _ => 0x25
  | .rolZp _ => 0x26
  | .andRr _ => 0x27
  | .plp => 0x28
  | .andImmM _ => 0x29
  | .rolAcc => 0x2A
  | .rli => 0x2B
  | .bitAbs _ => 0x2C
  | .andAbs _ => 0x2D
  | .rolAbs _ => 0x2E
  | .mulAbs _ => 0x2F
  | .bmi _ => 0x30
  | .andIzpY _ => 0x31
  | .andIzp _ => 0x32
  | .andIsrY _ => 0x33
  | .bitZpX _ => 0x34
  | .andZpX _ => 0x35
  | .rolZpX _ => 0x36
  | .andIrrY _ => 0x37
  | .sec => 0x38
  | .andAbsY _ => 0x39
  | .decAcc => 0x3A
  | .rlx => 0x3B
  | .bitAbsX _ => 0x3C
  | .andAbsX _ => 0x3D
  | .rolAbsX _ => 0x3E
  | .mulAbsX _ => 0x3F
  | .rti => 0x40
  | .eorIzpX _ => 0x41
  | .nxa => 0x42
  | .eorSr _ => 0x43
  | .rea _ => 0x44
  | .eorZp _ => 0x45
  | .lsrZp _ => 0x46
  | .eorRr _ => 0x47
  | .pha => 0x48
  | .eorImmM _ => 0x49
  | .lsrAcc => 0x4A
  | .rha => 0x4B
  | .jmpAbs _ => 0x4C
  | .eorAbs _ => 0x4D
  | .lsrAbs _ => 0x4E
  | .divZp _ => 0x4F
  | .bvc _ => 0x50
  | .eorIzpY _ => 0x51
  | .eorIzp _ => 0x52
  | .eorIsrY _ => 0x53
  | .rei _ => 0x54
  | .eorZpX _ => 0x55
  | .lsrZpX _ => 0x56
  | .eorIrrY _ => 0x57
  | .cli => 0x58
  | .eorAbsY _ => 0x59
  | .phy => 0x5A
  | .rhy => 0x5B
  | .txi => 0x5C
  | .eorAbsX _ => 0x5D
  | .lsrAbsX _ => 0x5E
  | .divZpX _ => 0x5F
  | .rts => 0x60
  | .adcIzpX _ => 0x61
  | .per _ => 0x62
  | .adcSr _ => 0x63
  | .stzZp _ => 0x64
  | .adcZp _ => 0x65
  | .rorZp _ => 0x66
  | .adcRr _ => 0x67
  | .pla => 0x68
  | .adcImmM _ => 0x69
  | .rorAcc => 0x6A
  | .rla => 0x6B
  | .jmpIabs _ => 0x6C
  | .adcAbs _ => 0x6D
  | .rorAbs _ => 0x6E
  | .divAbs _ => 0x6F
  | .bvs _ => 0x70
  | .adcIzpY _ => 0x71
  | .adcIzp _ => 0x72
  | .adcIsrY _ => 0x73
  | .stzZpX _ => 0x74
  | .adcZpX _ => 0x75
  | .rorZpX _ => 0x76
  | .adcIrrY _ => 0x77
  | .sei => 0x78
  | .adcAbsY _ => 0x79
  | .ply => 0x7A
  | .rly => 0x7B
  | .jmpIabsX _ => 0x7C
  | .adcAbsX _ => 0x7D
  | .rorAbsX _ => 0x7E
  | .divAbsX _ => 0x7F
  | .bra _ => 0x80
  | .staIzpX _ => 0x81
  | .rer _ => 0x82
  | .staSr _ => 0x83
  | .styZp _ => 0x84
  | .staZp _ => 0x85
  | .stxZp _ => 0x86
  | .staRr _ => 0x87
  | .dey => 0x88
  | .bitImmM _ => 0x89
  | .txa => 0x8A
  | .txr => 0x8B
  | .styAbs _ => 0x8C
  | .staAbs _ => 0x8D
  | .stxAbs _ => 0x8E
  | .zea => 0x8F
  | .bcc _ => 0x90
  | .staIzpY _ => 0x91
  | .staIzp _ => 0x92
  | .staIsrY _ => 0x93
  | .styZpX _ => 0x94
  | .staZpX _ => 0x95
  | .stxZpY _ => 0x96
  | .staIrrY _ => 0x97
  | .tya => 0x98
  | .staAbsY _ => 0x99
  | .txs => 0x9A
  | .txy => 0x9B
  | .stzAbs _ => 0x9C
  | .staAbsX _ => 0x9D
  | .stzAbsX _ => 0x9E
  | .sea => 0x9F
  | .ldyImmX _ => 0xA0
  | .ldaIzpX _ => 0xA1
  | .ldxImmX _ => 0xA2
  | .ldaSr _ => 0xA3
  | .ldyZp _ => 0xA4
  | .ldaZp _ => 0xA5
  | .ldxZp _ => 0xA6
  | .ldaRr _ => 0xA7
  | .tay => 0xA8
  | .ldaImmM _ => 0xA9
  | .tax => 0xAA
  | .trx => 0xAB
  | .ldyAbs _ => 0xAC
  | .ldaAbs _ => 0xAD
  | .ldxAbs _ => 0xAE
  | .tda => 0xAF
  | .bcs _ => 0xB0
  | .ldaIzpY _ => 0xB1
  | .ldaIzp _ => 0xB2
  | .ldaIsrY _ => 0xB3
  | .ldyZpX _ => 0xB4
  | .ldaZpX _ => 0xB5
  | .ldxZpY _ => 0xB6
  | .ldaIrrY _ => 0xB7
  | .clv => 0xB8
  | .ldaAbsY _ => 0xB9
  | .tsx => 0xBA
  | .tyx => 0xBB
  | .ldyAbsX _ => 0xBC
  | .ldaAbsX _ => 0xBD
  | .ldxAbsY _ => 0xBE
  | .tad => 0xBF
  | .cpyImmX _ => 0xC0
  | .cmpIzpX _ => 0xC1
  | .rep _ => 0xC2
  | .cmpSr _ => 0xC3
  | .cpyZp _ => 0xC4
  | .cmpZp _ => 0xC5
  | .decZp _ => 0xC6
  | .cmpRr _ => 0xC7
  | .iny => 0xC8
  | .cmpImmM _ => 0xC9
  | .dex => 0xCA
  | .wai => 0xCB
  | .cpyAbs _ => 0xCC
  | .cmpAbs _ => 0xCD
  | .decAbs _ => 0xCE
  | .pld => 0xCF
  | .bne _ => 0xD0
  | .cmpIzpY _ => 0xD1
  | .cmpIzp _ => 0xD2
  | .cmpIsrY _ => 0xD3
  | .pei _ => 0xD4
  | .cmpZpX _ => 0xD5
  | .decZpX _ => 0xD6
  | .cmpIrrY _ => 0xD7
  | .cld => 0xD8
  | .cmpAbsY _ => 0xD9
  | .phx => 0xDA
  | .stp => 0xDB
  | .tix => 0xDC
  | .cmpAbsX _ => 0xDD
  | .decAbsX _ => 0xDE
  | .phd => 0xDF
  | .cpxImmX _ => 0xE0
  | .sbcIzpX _ => 0xE1
  | .sep _ => 0xE2
  | .sbcSr _ => 0xE3
  | .cpxZp _ => 0xE4
  | .sbcZp _ => 0xE5
  | .incZp _ => 0xE6
  | .sbcRr _ => 0xE7
  | .inx => 0xE8
  | .sbcImmM _ => 0xE9
  | .nop => 0xEA
  | .xba => 0xEB
  | .cpxAbs _ => 0xEC
  | .sbcAbs _ => 0xED
  | .incAbs _ => 0xEE
  | .mmu _ => 0xEF
  | .beq _ => 0xF0
  | .sbcIzpY _ => 0xF1
  | .sbcIzp _ => 0xF2
  | .sbcIsrY _ => 0xF3
  | .pea _ => 0xF4
  | .sbcZpX _ => 0xF5
  | .incZpX _ => 0xF6
  | .sbcIrrY _ => 0xF7
  | .sed => 0xF8
  | .sbcAbsY _ => 0xF9
  | .plx => 0xFA
  | .xce => 0xFB
  | .jsrIabsX _ => 0xFC
  | .sbcAbsX _ => 0xFD
  | .incAbsX _ => 0xFE
  | .illegal => 0xFF

/-- The number of operand bytes of a memory mode (30_encoding.md R131). -/
def MemMode.operandBytes : MemMode → Nat
  | .abs _ | .absX _ | .absY _ => 2
  | .zp _ | .zpX _ | .zpY _ | .izpX _ | .izpY _ | .izp _ | .sr _ | .isrY _ | .rr _ | .irrY _ => 1

/-- The number of operand bytes of an addressing mode at the widths `wM` and `wX` (30_encoding.md R131). -/
def Operand.operandBytes (wM wX : Width) : Operand → Nat
  | .implied | .acc => 0
  | .immM _ => wM.bytes
  | .immX _ => wX.bytes
  | .imm8 _ | .rel _ => 1
  | .mem m => m.operandBytes
  | .iabs _ | .iabsX _ | .rel16 _ => 2

/-- The length of an instruction in bytes (30_encoding.md R133). -/
def Instr.length (wM wX : Width) (i : Instr) : Nat := 1 + i.operand.operandBytes wM wX

/-! ## The decoder: the opcode map of 30_encoding.md R135, one function a row and one arm a column -/

/-- Row 0x of the opcode map: the instruction of a column, from its operand as a byte `b`, as a word `w` and as an
immediate of width `wM` or `wX`. -/
def opcodeRow0 (column : Nat) (b : Byte) (w immM _immX : Word) : Instr :=
  match column with
  | 0 => .brk
  | 1 => .oraIzpX b
  | 2 => .nxt
  | 3 => .oraSr b
  | 4 => .tsbZp b
  | 5 => .oraZp b
  | 6 => .aslZp b
  | 7 => .oraRr b
  | 8 => .php
  | 9 => .oraImmM immM
  | 10 => .aslAcc
  | 11 => .rhi
  | 12 => .tsbAbs w
  | 13 => .oraAbs w
  | 14 => .aslAbs w
  | _ => .mulZp b

/-- Row 1x of the opcode map: the instruction of a column, from its operand as a byte `b`, as a word `w` and as an
immediate of width `wM` or `wX`. -/
def opcodeRow1 (column : Nat) (b : Byte) (w _immM _immX : Word) : Instr :=
  match column with
  | 0 => .bpl b
  | 1 => .oraIzpY b
  | 2 => .oraIzp b
  | 3 => .oraIsrY b
  | 4 => .trbZp b
  | 5 => .oraZpX b
  | 6 => .aslZpX b
  | 7 => .oraIrrY b
  | 8 => .clc
  | 9 => .oraAbsY w
  | 10 => .incAcc
  | 11 => .rhx
  | 12 => .trbAbs w
  | 13 => .oraAbsX w
  | 14 => .aslAbsX w
  | _ => .mulZpX b

/-- Row 2x of the opcode map: the instruction of a column, from its operand as a byte `b`, as a word `w` and as an
immediate of width `wM` or `wX`. -/
def opcodeRow2 (column : Nat) (b : Byte) (w immM _immX : Word) : Instr :=
  match column with
  | 0 => .jsrAbs w
  | 1 => .andIzpX b
  | 2 => .ent w
  | 3 => .andSr b
  | 4 => .bitZp b
  | 5 => .andZp b
  | 6 => .rolZp b
  | 7 => .andRr b
  | 8 => .plp
  | 9 => .andImmM immM
  | 10 => .rolAcc
  | 11 => .rli
  | 12 => .bitAbs w
  | 13 => .andAbs w
  | 14 => .rolAbs w
  | _ => .mulAbs w

/-- Row 3x of the opcode map: the instruction of a column, from its operand as a byte `b`, as a word `w` and as an
immediate of width `wM` or `wX`. -/
def opcodeRow3 (column : Nat) (b : Byte) (w _immM _immX : Word) : Instr :=
  match column with
  | 0 => .bmi b
  | 1 => .andIzpY b
  | 2 => .andIzp b
  | 3 => .andIsrY b
  | 4 => .bitZpX b
  | 5 => .andZpX b
  | 6 => .rolZpX b
  | 7 => .andIrrY b
  | 8 => .sec
  | 9 => .andAbsY w
  | 10 => .decAcc
  | 11 => .rlx
  | 12 => .bitAbsX w
  | 13 => .andAbsX w
  | 14 => .rolAbsX w
  | _ => .mulAbsX w

/-- Row 4x of the opcode map: the instruction of a column, from its operand as a byte `b`, as a word `w` and as an
immediate of width `wM` or `wX`. -/
def opcodeRow4 (column : Nat) (b : Byte) (w immM _immX : Word) : Instr :=
  match column with
  | 0 => .rti
  | 1 => .eorIzpX b
  | 2 => .nxa
  | 3 => .eorSr b
  | 4 => .rea w
  | 5 => .eorZp b
  | 6 => .lsrZp b
  | 7 => .eorRr b
  | 8 => .pha
  | 9 => .eorImmM immM
  | 10 => .lsrAcc
  | 11 => .rha
  | 12 => .jmpAbs w
  | 13 => .eorAbs w
  | 14 => .lsrAbs w
  | _ => .divZp b

/-- Row 5x of the opcode map: the instruction of a column, from its operand as a byte `b`, as a word `w` and as an
immediate of width `wM` or `wX`. -/
def opcodeRow5 (column : Nat) (b : Byte) (w _immM _immX : Word) : Instr :=
  match column with
  | 0 => .bvc b
  | 1 => .eorIzpY b
  | 2 => .eorIzp b
  | 3 => .eorIsrY b
  | 4 => .rei b
  | 5 => .eorZpX b
  | 6 => .lsrZpX b
  | 7 => .eorIrrY b
  | 8 => .cli
  | 9 => .eorAbsY w
  | 10 => .phy
  | 11 => .rhy
  | 12 => .txi
  | 13 => .eorAbsX w
  | 14 => .lsrAbsX w
  | _ => .divZpX b

/-- Row 6x of the opcode map: the instruction of a column, from its operand as a byte `b`, as a word `w` and as an
immediate of width `wM` or `wX`. -/
def opcodeRow6 (column : Nat) (b : Byte) (w immM _immX : Word) : Instr :=
  match column with
  | 0 => .rts
  | 1 => .adcIzpX b
  | 2 => .per w
  | 3 => .adcSr b
  | 4 => .stzZp b
  | 5 => .adcZp b
  | 6 => .rorZp b
  | 7 => .adcRr b
  | 8 => .pla
  | 9 => .adcImmM immM
  | 10 => .rorAcc
  | 11 => .rla
  | 12 => .jmpIabs w
  | 13 => .adcAbs w
  | 14 => .rorAbs w
  | _ => .divAbs w

/-- Row 7x of the opcode map: the instruction of a column, from its operand as a byte `b`, as a word `w` and as an
immediate of width `wM` or `wX`. -/
def opcodeRow7 (column : Nat) (b : Byte) (w _immM _immX : Word) : Instr :=
  match column with
  | 0 => .bvs b
  | 1 => .adcIzpY b
  | 2 => .adcIzp b
  | 3 => .adcIsrY b
  | 4 => .stzZpX b
  | 5 => .adcZpX b
  | 6 => .rorZpX b
  | 7 => .adcIrrY b
  | 8 => .sei
  | 9 => .adcAbsY w
  | 10 => .ply
  | 11 => .rly
  | 12 => .jmpIabsX w
  | 13 => .adcAbsX w
  | 14 => .rorAbsX w
  | _ => .divAbsX w

/-- Row 8x of the opcode map: the instruction of a column, from its operand as a byte `b`, as a word `w` and as an
immediate of width `wM` or `wX`. -/
def opcodeRow8 (column : Nat) (b : Byte) (w immM _immX : Word) : Instr :=
  match column with
  | 0 => .bra b
  | 1 => .staIzpX b
  | 2 => .rer w
  | 3 => .staSr b
  | 4 => .styZp b
  | 5 => .staZp b
  | 6 => .stxZp b
  | 7 => .staRr b
  | 8 => .dey
  | 9 => .bitImmM immM
  | 10 => .txa
  | 11 => .txr
  | 12 => .styAbs w
  | 13 => .staAbs w
  | 14 => .stxAbs w
  | _ => .zea

/-- Row 9x of the opcode map: the instruction of a column, from its operand as a byte `b`, as a word `w` and as an
immediate of width `wM` or `wX`. -/
def opcodeRow9 (column : Nat) (b : Byte) (w _immM _immX : Word) : Instr :=
  match column with
  | 0 => .bcc b
  | 1 => .staIzpY b
  | 2 => .staIzp b
  | 3 => .staIsrY b
  | 4 => .styZpX b
  | 5 => .staZpX b
  | 6 => .stxZpY b
  | 7 => .staIrrY b
  | 8 => .tya
  | 9 => .staAbsY w
  | 10 => .txs
  | 11 => .txy
  | 12 => .stzAbs w
  | 13 => .staAbsX w
  | 14 => .stzAbsX w
  | _ => .sea

/-- Row Ax of the opcode map: the instruction of a column, from its operand as a byte `b`, as a word `w` and as an
immediate of width `wM` or `wX`. -/
def opcodeRowA (column : Nat) (b : Byte) (w immM immX : Word) : Instr :=
  match column with
  | 0 => .ldyImmX immX
  | 1 => .ldaIzpX b
  | 2 => .ldxImmX immX
  | 3 => .ldaSr b
  | 4 => .ldyZp b
  | 5 => .ldaZp b
  | 6 => .ldxZp b
  | 7 => .ldaRr b
  | 8 => .tay
  | 9 => .ldaImmM immM
  | 10 => .tax
  | 11 => .trx
  | 12 => .ldyAbs w
  | 13 => .ldaAbs w
  | 14 => .ldxAbs w
  | _ => .tda

/-- Row Bx of the opcode map: the instruction of a column, from its operand as a byte `b`, as a word `w` and as an
immediate of width `wM` or `wX`. -/
def opcodeRowB (column : Nat) (b : Byte) (w _immM _immX : Word) : Instr :=
  match column with
  | 0 => .bcs b
  | 1 => .ldaIzpY b
  | 2 => .ldaIzp b
  | 3 => .ldaIsrY b
  | 4 => .ldyZpX b
  | 5 => .ldaZpX b
  | 6 => .ldxZpY b
  | 7 => .ldaIrrY b
  | 8 => .clv
  | 9 => .ldaAbsY w
  | 10 => .tsx
  | 11 => .tyx
  | 12 => .ldyAbsX w
  | 13 => .ldaAbsX w
  | 14 => .ldxAbsY w
  | _ => .tad

/-- Row Cx of the opcode map: the instruction of a column, from its operand as a byte `b`, as a word `w` and as an
immediate of width `wM` or `wX`. -/
def opcodeRowC (column : Nat) (b : Byte) (w immM immX : Word) : Instr :=
  match column with
  | 0 => .cpyImmX immX
  | 1 => .cmpIzpX b
  | 2 => .rep b
  | 3 => .cmpSr b
  | 4 => .cpyZp b
  | 5 => .cmpZp b
  | 6 => .decZp b
  | 7 => .cmpRr b
  | 8 => .iny
  | 9 => .cmpImmM immM
  | 10 => .dex
  | 11 => .wai
  | 12 => .cpyAbs w
  | 13 => .cmpAbs w
  | 14 => .decAbs w
  | _ => .pld

/-- Row Dx of the opcode map: the instruction of a column, from its operand as a byte `b`, as a word `w` and as an
immediate of width `wM` or `wX`. -/
def opcodeRowD (column : Nat) (b : Byte) (w _immM _immX : Word) : Instr :=
  match column with
  | 0 => .bne b
  | 1 => .cmpIzpY b
  | 2 => .cmpIzp b
  | 3 => .cmpIsrY b
  | 4 => .pei b
  | 5 => .cmpZpX b
  | 6 => .decZpX b
  | 7 => .cmpIrrY b
  | 8 => .cld
  | 9 => .cmpAbsY w
  | 10 => .phx
  | 11 => .stp
  | 12 => .tix
  | 13 => .cmpAbsX w
  | 14 => .decAbsX w
  | _ => .phd

/-- Row Ex of the opcode map: the instruction of a column, from its operand as a byte `b`, as a word `w` and as an
immediate of width `wM` or `wX`. -/
def opcodeRowE (column : Nat) (b : Byte) (w immM immX : Word) : Instr :=
  match column with
  | 0 => .cpxImmX immX
  | 1 => .sbcIzpX b
  | 2 => .sep b
  | 3 => .sbcSr b
  | 4 => .cpxZp b
  | 5 => .sbcZp b
  | 6 => .incZp b
  | 7 => .sbcRr b
  | 8 => .inx
  | 9 => .sbcImmM immM
  | 10 => .nop
  | 11 => .xba
  | 12 => .cpxAbs w
  | 13 => .sbcAbs w
  | 14 => .incAbs w
  | _ => .mmu b

/-- Row Fx of the opcode map: the instruction of a column, from its operand as a byte `b`, as a word `w` and as an
immediate of width `wM` or `wX`. -/
def opcodeRowF (column : Nat) (b : Byte) (w _immM _immX : Word) : Instr :=
  match column with
  | 0 => .beq b
  | 1 => .sbcIzpY b
  | 2 => .sbcIzp b
  | 3 => .sbcIsrY b
  | 4 => .pea w
  | 5 => .sbcZpX b
  | 6 => .incZpX b
  | 7 => .sbcIrrY b
  | 8 => .sed
  | 9 => .sbcAbsY w
  | 10 => .plx
  | 11 => .xce
  | 12 => .jsrIabsX w
  | 13 => .sbcAbsX w
  | 14 => .incAbsX w
  | _ => .illegal

/-- An immediate of variable width: `b1` when the width is 8, `b1 | (b2 << 8)` when it is 16 (30_encoding.md R134). -/
def immOf (w : Width) (b1 b2 : Byte) : Word :=
  match w with
  | .w8 => zext b1
  | .w16 => mkWord b1 b2

/-- The instruction of an opcode byte and the two bytes after it, of which the instruction may use none, one or both
(30_encoding.md R132, R134). -/
def instrOf (wM wX : Width) (opcode b1 b2 : Byte) : Instr :=
  let column := opcode.toNat % 16
  let w := mkWord b1 b2
  let m := immOf wM b1 b2
  let x := immOf wX b1 b2
  match opcode.toNat / 16 with
  | 0 => opcodeRow0 column b1 w m x
  | 1 => opcodeRow1 column b1 w m x
  | 2 => opcodeRow2 column b1 w m x
  | 3 => opcodeRow3 column b1 w m x
  | 4 => opcodeRow4 column b1 w m x
  | 5 => opcodeRow5 column b1 w m x
  | 6 => opcodeRow6 column b1 w m x
  | 7 => opcodeRow7 column b1 w m x
  | 8 => opcodeRow8 column b1 w m x
  | 9 => opcodeRow9 column b1 w m x
  | 10 => opcodeRowA column b1 w m x
  | 11 => opcodeRowB column b1 w m x
  | 12 => opcodeRowC column b1 w m x
  | 13 => opcodeRowD column b1 w m x
  | 14 => opcodeRowE column b1 w m x
  | _ => opcodeRowF column b1 w m x

/-- The length of the instruction an opcode byte begins, told from the opcode and the widths alone (30_encoding.md R139). -/
def opcodeLength (wM wX : Width) (opcode : Byte) : Nat := (instrOf wM wX opcode 0 0).length wM wX

/-- Why bytes are not decoded. Every opcode byte is an instruction (30_encoding.md R137), so only want of bytes is left. -/
inductive DecodeError where
  /-- There is no opcode byte. -/
  | noBytes
  /-- The instruction of this opcode needs more bytes than there are. -/
  | truncated (opcode : Byte)
deriving DecidableEq, Repr

/-- The instruction that bytes begin with at the widths `wM` and `wX`, and the bytes after it. -/
def decode (wM wX : Width) : List Byte → Except DecodeError (Instr × List Byte)
  | [] => .error .noBytes
  | opcode :: rest =>
    match opcodeLength wM wX opcode, rest with
    | 1, rest => .ok (instrOf wM wX opcode 0 0, rest)
    | 2, b1 :: rest => .ok (instrOf wM wX opcode b1 0, rest)
    | 3, b1 :: b2 :: rest => .ok (instrOf wM wX opcode b1 b2, rest)
    | _, _ => .error (.truncated opcode)

/-- The row of the opcode map that an opcode byte selects where `illegal` is `P_ILLEGAL_OPCODES`: an opcode of the set is
removed from its row and stands for the illegal instruction, whose own row is 0xFF (92_eei_decisions.md D2). The byte 0xFF has
no other instruction, so it is illegal in every set: log entry 33. -/
def romOpcode (illegal : List Byte) (opcode : Byte) : Byte := if opcode ∈ illegal then 0xFF else opcode

/-- The decoder of a core whose `P_ILLEGAL_OPCODES` is `illegal` (30_encoding.md R137). -/
def decodeIn (illegal : List Byte) (wM wX : Width) : List Byte → Except DecodeError (Instr × List Byte)
  | [] => .error .noBytes
  | opcode :: rest => decode wM wX (romOpcode illegal opcode :: rest)

/-- The instruction the decoder reads, at the 8-bit widths that hold after reset (70_reset_and_hazards.md R532), from
the bytes of `w`, the first in bits 7..0, zero from bit `nbits` on. -/
def decodeTableWord (nbits w : Nat) : Option Instr :=
  let n := w % 2 ^ nbits
  match decode .w8 .w8 [BitVec.ofNat 8 n, BitVec.ofNat 8 (n / 256), BitVec.ofNat 8 (n / 65536)] with
  | .ok (i, _) => some i
  | .error _ => none

/-! ## The encoder -/

/-- The operand byte or bytes of a memory mode (30_encoding.md R131). -/
def encodeMemMode : MemMode → List Byte
  | .zp z | .zpX z | .zpY z | .izpX z | .izpY z | .izp z => [z]
  | .sr o | .isrY o | .rr o | .irrY o => [o]
  | .abs w | .absX w | .absY w => [loByte w, hiByte w]

/-- The bytes of an immediate of variable width. -/
def encodeImm (w : Width) (v : Word) : List Byte :=
  match w with
  | .w8 => [loByte v]
  | .w16 => [loByte v, hiByte v]

/-- The operand bytes of an addressing mode at the widths `wM` and `wX` (30_encoding.md R131). -/
def encodeOperand (wM wX : Width) : Operand → List Byte
  | .implied | .acc => []
  | .immM v => encodeImm wM v
  | .immX v => encodeImm wX v
  | .imm8 k => [k]
  | .mem m => encodeMemMode m
  | .iabs w | .iabsX w | .rel16 w => [loByte w, hiByte w]
  | .rel b => [b]

/-- The bytes of an instruction at the widths `wM` and `wX`, the opcode first (30_encoding.md R130). -/
def encode (wM wX : Width) (i : Instr) : List Byte := i.opcode :: encodeOperand wM wX i.operand

end Sys2Proof
end

