-- ==== Sys2Proof/Config.lean ====
section
/-! DEFINITION. What a platform fixes: the named parameters of 00_scope.md R8, each an argument of the model, the values
the spec uses for them, and the values this model names for the open ones. Then the record of what passes between the core
and its collaborators, and the free values: opaque constants, of which nothing can be proved but that they are functions of
that record. -/

namespace Sys2Proof

/-- A peripheral a host installs in a RedBus slot (20_memory.md R87), known to the core only by its identity. -/
abbrev Peripheral := Nat

/-- One interaction of the machine with something outside it. The list of them is the model's own field of State. -/
inductive HostEvent where
  /-- A read of a device that is not RAM, at a local offset (20_memory.md R84, R86). -/
  | deviceRead (device : Nat) (offset : Word)
  /-- A write to a device that is not RAM (20_memory.md R85). -/
  | deviceWrite (device : Nat) (offset : Word) (value : Byte)
  /-- A read of the peripheral in the active slot, at a local address (20_memory.md R91). -/
  | peripheralRead (peripheral : Peripheral) (local_ : Byte)
  /-- A write to the peripheral in the active slot (20_memory.md R92). -/
  | peripheralWrite (peripheral : Peripheral) (local_ : Byte) (value : Byte)
  /-- The `update()` of the peripheral in the active slot (20_memory.md R94). -/
  | peripheralTick (peripheral : Peripheral)
  /-- The diagnostic log call with `Acc(wM)` (49_system.md R453). -/
  | log (width : Width) (value : Word)
deriving DecidableEq, Repr

/-- What an interrupt entry takes its vector from: `P_IRQ_VECTOR` and `P_NMI_VECTOR` are functions of the state (00_scope.md
R8). -/
inductive VectorSource where
  /-- The register `BRKV`, which this spec uses for both. -/
  | brkv
  /-- One address. -/
  | constant (address : Word)
  /-- Any other function of the state, known by its number alone: log entry 32. -/
  | function (id : Nat)
deriving DecidableEq, Repr

/-- The named parameters of 00_scope.md R8 that the core reads as it runs. A machine carries them in State, and nothing changes
them. -/
structure Params where
  /-- `P_DSTACK_BASE`. -/
  dstackBase : Word
  /-- `P_RSTACK_BASE`. -/
  rstackBase : Word
  /-- `P_IRQ_VECTOR`. -/
  irqVector : VectorSource
  /-- `P_NMI_VECTOR`. -/
  nmiVector : VectorSource
  /-- `P_INT_CLEARS_D`. -/
  intClearsD : Bool
  /-- `P_ILLEGAL_OPCODES`, a set of opcode bytes. -/
  illegalOpcodes : List Byte
  /-- `P_MULDIV_SIGNED_WHEN_C`. -/
  muldivSignedWhenC : Bool
deriving DecidableEq, Repr

/-- The values 00_scope.md R8 admits. -/
abbrev Params.Admitted (p : Params) : Prop :=
  p.dstackBase.toNat % 256 = 0 ∧ p.rstackBase.toNat % 256 = 0 ∧ p.rstackBase ≠ p.dstackBase

/-- `P_REDBUS_INIT`: the RedBus configuration at construction (00_scope.md R8, 70_reset_and_hazards.md R533). -/
structure RedBusInit where
  enabled : Bool
  slot : Byte
  window : Word
  auxwin : Word
  auxen : Bool
deriving DecidableEq, Repr

namespace Config

/-- The parameters at the values this spec uses (00_scope.md R8). -/
def params : Params where
  dstackBase := 0x0100
  rstackBase := 0x0200
  irqVector := .brkv
  nmiVector := .brkv
  intClearsD := false
  illegalOpcodes := [0xFF]
  muldivSignedWhenC := true

/-- `P_REDBUS_INIT` at the value this spec uses (00_scope.md R8). -/
def redBusInit : RedBusInit := ⟨false, 0, 0x0000, 0x0000, false⟩

/-- `P_WAKE_TOKEN_CAP`, for which 00_scope.md R8 admits 2 alone (log entry 16). -/
def wakeTokenCap : Nat := 2

/-- `P_POR_INIT`, OPEN in 00_scope.md R8. DESIGN CHOICE 0x0400, unsafe: log entry 2. -/
def porInit : Word := 0x0400

/-- `P_BRK_INIT`, OPEN in 00_scope.md R8. DESIGN CHOICE 0x2000, unsafe: log entry 3. -/
def brkInit : Word := 0x2000

/-- `P_WAKE_TOKENS_INIT`, OPEN in 00_scope.md R8. DESIGN CHOICE 0, unsafe: log entry 4. -/
def wakeTokensInit : Nat := 0

/-- What a RAM byte that nothing has written reads as (20_memory.md R86). DESIGN CHOICE 0, unsafe: log entry 6. -/
def ramInit : Byte := 0

/-- FREE VALUE. What a device that is not RAM, or a peripheral, answers to the read that heads the record (20_memory.md
R86, R91; 93_implementation_defined.md U5, S15). DESIGN CHOICE of form, safe: log entry 8. -/
opaque deviceAnswer : List HostEvent → Byte

/-- FREE VALUE. How often the peripheral whose tick heads the record calls `signal()` in that tick (60_exceptions.md
R504). DESIGN CHOICE of form, safe: log entry 9. -/
opaque tickSignals : List HostEvent → Nat

end Config

end Sys2Proof
end

