-- ==== Sys2Proof/Machine/State.lean ====
section
/-! DEFINITION. The state of the machine as plain data (10_state.md, 20_memory.md, 60_exceptions.md), the reasons a step
can stop, and the state after reset. -/

namespace Sys2Proof.Machine

/-- What stands behind an address range (20_memory.md R81, R86). -/
inductive DeviceKind where
  /-- RAM: a read gives the last byte written. -/
  | ram
  /-- Any other device, known to the core by its identity; the host answers its reads. -/
  | external (id : Nat)
deriving DecidableEq, Repr

/-- A device: an inclusive address range (20_memory.md R81). -/
structure Device where
  start : Word
  stop : Word
  kind : DeviceKind
deriving DecidableEq, Repr

/-- The bytes of the RAM devices, by global address, in the canonical form `Memory.wf`. A RAM device at `start` holds its
local offset `o` at `start + o` (log entry 7). -/
abbrev Memory := List Host.Cell

/-- Whether the listed addresses rise strictly from `lo`, lie in the address space, and list no byte equal to what an
unlisted address reads as. -/
def Memory.wfFrom (lo : Nat) : List Host.Cell → Bool
  | [] => true
  | (a, v) :: t => lo ≤ a && a < 65536 && v != Config.ramInit && Memory.wfFrom (a + 1) t

/-- The canonical form of memory. -/
def Memory.wf (m : List Host.Cell) : Bool := Memory.wfFrom 0 m

/-- Why a step answers no next state. -/
inductive Fault where
  /-- `fault BusUnmapped(a)`: raised by a bus access that no device covers (20_memory.md R82, R88). Safe: the spec ends
  the run there. -/
  | busUnmapped (a : Word)
  /-- Raised by `step` when `halted = 1`: no step is enabled until reset (60_exceptions.md R494). Safe. -/
  | halted
  /-- Raised by `step` when the run loop is not running: no step is enabled until `run()` (60_exceptions.md R490,
  R493). Safe. -/
  | notRunning
  /-- Raised by `step` when `waiting = 1` and there is no wake token: no step is enabled until `signal()`
  (60_exceptions.md R490). Safe. -/
  | waitBlocked
deriving DecidableEq, Repr

/-- What the model refuses to run. -/
inductive Refusal where
  /-- Raised by `exec` for an instruction that has no meaning in the model. No arm raises it. Safe. -/
  | notModelled (mnemonic : String)
  /-- Raised by `step` when two devices have one start address: the platform is outside the spec, and a model refuses it
  (20_memory.md R83). Safe. -/
  | ambiguousDeviceMap
deriving DecidableEq, Repr

/-- The state of the machine. -/
structure State where
  /-- `AL`, the accumulator's low byte (R30). -/
  al : Byte
  /-- `AH`, the accumulator's high byte, hidden while `fM = 1` (R31). -/
  ah : Byte
  /-- `X` (R32). -/
  x : Word
  /-- `Y` (R32). -/
  y : Word
  /-- `SP`, the offset in the data-stack window (R33). -/
  sp : Byte
  /-- `R`, the offset in the auxiliary-stack window (R34). -/
  r : Byte
  /-- `PC` (R35). -/
  pc : Word
  /-- `I`, the indirect-execution register (R36). -/
  i : Word
  /-- `D` (R37). -/
  d : Word
  /-- `POR`, the power-on-reset vector (R38). -/
  por : Word
  /-- `BRKV`, the software-interrupt vector (R38). -/
  brkv : Word
  /-- Carry (R40). -/
  fC : Bool
  /-- Zero (R40). -/
  fZ : Bool
  /-- Negative (R40). -/
  fN : Bool
  /-- Overflow (R40). -/
  fV : Bool
  /-- IRQ disable (R40). -/
  fI : Bool
  /-- Decimal (R40). -/
  fD : Bool
  /-- Break (R40). -/
  fB : Bool
  /-- Emulation mode (R40). -/
  fE : Bool
  /-- 8-bit accumulator (R40). -/
  fM : Bool
  /-- 8-bit index (R40). -/
  fX : Bool
  /-- `rb_enabled` (R45). -/
  rbEnabled : Bool
  /-- `rb_slot`, the active slot (R45). -/
  rbSlot : Byte
  /-- `rb_window`, the start of the RedBus window (R45). -/
  rbWindow : Word
  /-- `rb_auxwin`, inert (R45, R96). -/
  rbAuxWin : Word
  /-- `rb_auxen`, inert (R45, R96). -/
  rbAuxEn : Bool
  /-- `rb_bind[0..255]`: the peripheral in each slot, if any (R46). -/
  rbBind : Vector (Option Peripheral) 256
  /-- The illegal-opcode trap flag (R47). -/
  trap : Bool
  /-- IRQ pending (R47). -/
  irq : Bool
  /-- NMI pending (R47). -/
  nmi : Bool
  /-- The core has executed WAI and is not yet released (R47). -/
  waiting : Bool
  /-- The core has executed STP (R47). -/
  halted : Bool
  /-- Completed core steps (R47, R498). -/
  steps : Nat
  /-- The machine's wake tokens (R491). -/
  tokens : Nat
  /-- Whether the run loop is running (R490, R504). -/
  running : Bool
  /-- Whether a diagnostic log callback is installed (R453, R502). -/
  logInstalled : Bool
  /-- Whether the machine has been reset since its construction (R533: the launch premise of the first `run()`). -/
  wasReset : Bool
  /-- The parameters of the platform (00_scope.md R8); nothing changes them. -/
  params : Params
  /-- `P_DEVICE_MAP` (R81). -/
  devices : List Device
  /-- The bytes of RAM (R80, R86). -/
  mem : List Host.Cell
  /-- The model's own field: what has passed between the machine and its collaborators, newest first (log entry 10). -/
  events : List HostEvent
deriving DecidableEq, Repr

/-- The machine after construction (R533), reset (R530) and `run()` (R504), in which a step is enabled. The values R530
and R8 do not give are log entries 1 to 6, 10 and 17; the parameters stand at the values this spec uses. -/
def State.reset : State where
  al := 0x00
  ah := 0x00
  x := 0x0000
  y := 0x0000
  sp := 0xFF
  r := 0xFF
  pc := Config.porInit
  i := 0x0000
  d := 0x0000
  por := Config.porInit
  brkv := Config.brkInit
  fC := false
  fZ := false
  fN := false
  fV := false
  fI := true
  fD := false
  fB := false
  fE := true
  fM := true
  fX := true
  rbEnabled := Config.redBusInit.enabled
  rbSlot := Config.redBusInit.slot
  rbWindow := Config.redBusInit.window
  rbAuxWin := Config.redBusInit.auxwin
  rbAuxEn := Config.redBusInit.auxen
  rbBind := Vector.replicate 256 none
  trap := false
  irq := false
  nmi := false
  waiting := false
  halted := false
  steps := 0
  tokens := Config.wakeTokensInit
  running := true
  logInstalled := false
  wasReset := true
  params := Config.params
  devices := [⟨0x0000, 0xFFFF, .ram⟩]
  mem := []
  events := []

end Sys2Proof.Machine

namespace Sys2Proof.Config

/-- FREE VALUE. The vector that a `VectorSource.function` gives in a state. DESIGN CHOICE of form, safe: log entry 32. -/
opaque vectorFunction : Nat → Machine.State → Word

end Sys2Proof.Config
end

