-- ==== Sys2Proof/Machine/Registers.lean ====
section
/-! DEFINITION. The widths the flags select and the reads and writes of the registers at a width (00_scope.md R12,
10_state.md R31, R32). -/

namespace Sys2Proof.Machine

/-- A value cut to an operand width: `v mod 2^w`. -/
def cut (w : Width) (v : Word) : Word :=
  match w with
  | .w8 => zext (loByte v)
  | .w16 => v

/-- The top bit `v[w-1]` of a value at a width. -/
def topBit (w : Width) (v : Word) : Bool := v.getLsbD (w.bits - 1)

/-- `wM`, the accumulator width (R12). -/
def State.wM (s : State) : Width := if s.fM then .w8 else .w16

/-- `wX`, the index width (R12). -/
def State.wX (s : State) : Width := if s.fX then .w8 else .w16

/-- `A16 = AH:AL`, the whole accumulator (R31). -/
def State.a16 (s : State) : Word := mkWord s.al s.ah

/-- `Acc(w)` (R12). -/
def State.acc (s : State) (w : Width) : Word := cut w s.a16

/-- `SetAcc(v, w)` (R12): at width 8, `AH` keeps its value. -/
def State.setAcc (s : State) (w : Width) (v : Word) : State :=
  match w with
  | .w8 => { s with al := loByte v }
  | .w16 => { s with al := loByte v, ah := hiByte v }

/-- A write of `X` at an index width: `X <- zext_16(v[w-1:0])` (R32). -/
def State.setX (s : State) (w : Width) (v : Word) : State := { s with x := cut w v }

/-- A write of `Y` at an index width (R32). -/
def State.setY (s : State) (w : Width) (v : Word) : State := { s with y := cut w v }

/-- What every event that sets fX to 1 does to the index registers: their high bytes become 0 (R32). -/
def State.cutIndex (s : State) : State := { s with x := cut .w8 s.x, y := cut .w8 s.y }

end Sys2Proof.Machine
end

