-- ==== Sys2Proof/Machine/Flags.lean ====
section
/-! DEFINITION. The flag computations: N and Z of a result, the status byte, and the arithmetic whose flags the spec
gives with its result (00_scope.md R12, 10_state.md R43, R44, 41_arith_logic.md, 48_muldiv.md). -/

namespace Sys2Proof.Machine

/-- `SetNZ(v, w)` (00_scope.md R12). -/
def State.setNZ (s : State) (w : Width) (v : Word) : State := { s with fN := topBit w v, fZ := cut w v == 0 }

/-! ## The status byte -/

/-- `GetP()`, the status byte (10_state.md R43). -/
def State.getP (s : State) : Byte :=
  BitVec.ofBool s.fN ++ BitVec.ofBool s.fV ++ BitVec.ofBool s.fM ++ BitVec.ofBool (if s.fE then s.fB else s.fX) ++
    BitVec.ofBool s.fD ++ BitVec.ofBool s.fI ++ BitVec.ofBool s.fZ ++ BitVec.ofBool s.fC

/-- `SetP(v)` (10_state.md R44). -/
def State.setP (s : State) (v : Byte) : State :=
  let s := { s with
    fN := v.getLsbD 7, fV := v.getLsbD 6, fD := v.getLsbD 3, fI := v.getLsbD 2, fZ := v.getLsbD 1, fC := v.getLsbD 0 }
  if s.fE then
    { s with fB := v.getLsbD 4 }
  else
    let s := { s with fM := v.getLsbD 5, fX := v.getLsbD 4 }
    if s.fX then s.cutIndex else s

/-! ## Addition and subtraction -/

/-- A result with the carry and overflow that go with it. -/
structure AluResult where
  value : Word
  carry : Bool
  overflow : Bool
deriving DecidableEq, Repr

/-- `AddBin(a, m, w)` (41_arith_logic.md R214): carry when the unmasked sum exceeds the mask, overflow when operands of
one sign give a result of the other. -/
def addBin (w : Width) (a m : Word) (c : Bool) : AluResult :=
  let sum := a.toNat + m.toNat + c.toNat
  let r := BitVec.ofNat 16 (sum % 2 ^ w.bits)
  { value := r, carry := decide (sum > 2 ^ w.bits - 1), overflow := topBit w ((a ^^^ r) &&& (m ^^^ r)) }

/-- `SubBin(a, m, w)` (41_arith_logic.md R217): the addition of the complement of `m`. -/
def subBin (w : Width) (a m : Word) (c : Bool) : AluResult := addBin w a (cut w (~~~m)) c

/-- The digit loop of `AddDec` (41_arith_logic.md R215) over the lowest `digits` digits: the result and the carry out. -/
def addDigits : (digits : Nat) → (a m : Nat) → (c : Bool) → Nat × Bool
  | 0, _, _, c => (0, c)
  | digits + 1, a, m, c =>
    let d := a % 16 + m % 16 + c.toNat
    let d := if d > 9 then d + 6 else d
    let rest := addDigits digits (a / 16) (m / 16) (decide (d > 15))
    (d % 16 + 16 * rest.1, rest.2)

/-- `AddDec(a, m, w)` (41_arith_logic.md R215): `w/4` digits, overflow forced false. -/
def addDec (w : Width) (a m : Word) (c : Bool) : AluResult :=
  let r := addDigits (w.bits / 4) a.toNat m.toNat c
  { value := BitVec.ofNat 16 r.1, carry := r.2, overflow := false }

/-- The digit loop of `SubDec` (41_arith_logic.md R218) over the lowest `digits` digits: the result and the borrow out. -/
def subDigits : (digits : Nat) → (a m : Nat) → (b : Bool) → Nat × Bool
  | 0, _, _, b => (0, b)
  | digits + 1, a, m, b =>
    let d : Int := (a % 16 : Nat) - (m % 16 : Nat) - (b.toNat : Nat)
    let borrow := decide (d < 0)
    let d := if borrow then d + 10 else d
    let rest := subDigits digits (a / 16) (m / 16) borrow
    ((d % 16).toNat + 16 * rest.1, rest.2)

/-- `SubDec(a, m, w)` (41_arith_logic.md R218): the borrow in is `1 - fC`, the carry out `1 - b`. -/
def subDec (w : Width) (a m : Word) (c : Bool) : AluResult :=
  let r := subDigits (w.bits / 4) a.toNat m.toNat (!c)
  { value := BitVec.ofNat 16 r.1, carry := !r.2, overflow := false }

/-- What `AddBin`, `AddDec`, `SubBin` and `SubDec` do with their result (R214, R215, R217, R218). -/
def State.putAlu (s : State) (w : Width) (q : AluResult) : State :=
  ({ s.setAcc w q.value with fC := q.carry, fV := q.overflow }).setNZ w q.value

/-- `Compare(reg, m, w)` (41_arith_logic.md R225). -/
def State.compare (s : State) (w : Width) (reg m : Word) : State :=
  ({ s with fC := decide (reg.toNat ≥ m.toNat) }).setNZ w (reg - m)

/-! ## Shifts and rotates: the result and the bit shifted out -/

/-- `ASL` (42_shift_incdec.md R240). -/
def shiftAsl (w : Width) (v : Word) (_ : Bool) : Word × Bool := (cut w (v <<< 1), topBit w v)

/-- `LSR` (42_shift_incdec.md R241). -/
def shiftLsr (_ : Width) (v : Word) (_ : Bool) : Word × Bool := (v >>> 1, v.getLsbD 0)

/-- `ROL` (42_shift_incdec.md R242): the old carry enters bit 0. -/
def shiftRol (w : Width) (v : Word) (c : Bool) : Word × Bool :=
  (cut w ((v <<< 1) ||| (BitVec.ofBool c).setWidth 16), topBit w v)

/-- `ROR` (42_shift_incdec.md R243): the old carry enters bit `w-1`. -/
def shiftRor (w : Width) (v : Word) (c : Bool) : Word × Bool :=
  ((v >>> 1) ||| ((BitVec.ofBool c).setWidth 16 <<< (w.bits - 1)), v.getLsbD 0)

/-! ## Multiplication and division -/

/-- Whether `MUL` and `DIV` are signed (48_muldiv.md, common notation). -/
def State.mulDivSigned (s : State) : Bool := if s.params.muldivSignedWhenC then s.fC else !s.fC

/-- The 32-bit product of `MUL` (48_muldiv.md R430). -/
def product (signed : Bool) (a m : Word) : BitVec 32 :=
  if signed then BitVec.ofInt 32 (a.toInt * m.toInt) else BitVec.ofNat 32 (a.toNat * m.toNat)

/-- The quotient, kept modulo `2^16`, and the remainder of `DIV` for a divisor that is not 0: the quotient is rounded
toward zero and the remainder has the dividend's sign (48_muldiv.md R431). -/
def quotient (signed : Bool) (n : BitVec 32) (m : Word) : Word × Word :=
  if signed then (BitVec.ofInt 16 (n.toInt.tdiv m.toInt), BitVec.ofInt 16 (n.toInt.tmod m.toInt))
  else (BitVec.ofNat 16 (n.toNat / m.toNat), BitVec.ofNat 16 (n.toNat % m.toNat))

end Sys2Proof.Machine
end

