-- ==== Sys2Proof/Machine/Ops.lean ====
section
/-! DEFINITION. The named operations over memory, the bus, the two stacks, and taking an exception and returning from
one (00_scope.md R13, R14; 20_memory.md; 45_stack.md R350; 46_aux_stack.md R380; 60_exceptions.md). -/

namespace Sys2Proof.Machine

/-! ## Memory -/

/-- The byte at an address of RAM: the last byte written, or the launch content (20_memory.md R86). -/
def Memory.read : List Host.Cell → Nat → Byte
  | [], _ => Config.ramInit
  | (a, v) :: t, k => if a = k then v else Memory.read t k

/-- Memory with the byte at an address replaced; the canonical form is kept. -/
def Memory.write : List Host.Cell → Nat → Byte → List Host.Cell
  | [], k, v => if v = Config.ramInit then [] else [(k, v)]
  | (a, u) :: t, k, v =>
    if a < k then (a, u) :: Memory.write t k v
    else if a = k then (if v = Config.ramInit then t else (k, v) :: t)
    else (if v = Config.ramInit then (a, u) :: t else (k, v) :: (a, u) :: t)

/-! ## The bus -/

/-- `InWindow(a)` (20_memory.md R90): compared as unbounded integers, whatever `rb_enabled` is. -/
def State.inWindow (s : State) (a : Word) : Bool :=
  decide (s.rbWindow.toNat ≤ a.toNat ∧ a.toNat ≤ s.rbWindow.toNat + 255)

/-- The device with the greatest start at or below an address (20_memory.md R82). -/
def nearestDevice : List Device → Word → Option Device
  | [], _ => none
  | dv :: t, a =>
    match nearestDevice t a with
    | none => if dv.start ≤ a then some dv else none
    | some e => if dv.start ≤ a ∧ e.start < dv.start then some dv else some e

/-- Where a bus transaction goes. -/
inductive BusTarget where
  | redBus
  | ram
  | external (id : Nat) (offset : Word)
  | unmapped
deriving DecidableEq, Repr

/-- `BusTarget(a)` (20_memory.md R82): the RedBus window first, then the nearest device, if it reaches so far. -/
def State.busTarget (s : State) (a : Word) : BusTarget :=
  if s.inWindow a then .redBus
  else
    match nearestDevice s.devices a with
    | none => .unmapped
    | some dv =>
      if dv.stop < a then .unmapped
      else
        match dv.kind with
        | .ram => .ram
        | .external id => .external id (a - dv.start)

/-- The peripheral in the active slot, if there is one (20_memory.md R89). -/
def State.activePeripheral (s : State) : Option Peripheral := s.rbBind[s.rbSlot.toNat]'(s.rbSlot.isLt)

/-- The peripheral's local address of a window address: `a - rb_window` (20_memory.md R93). -/
def State.localAddress (s : State) (a : Word) : Byte := loByte (a - s.rbWindow)

/-- A read that a collaborator answers: the read is recorded, and the answer is the free value of the record
(20_memory.md R86, R91). -/
def State.ask (s : State) (e : HostEvent) : Byte × State :=
  (Config.deviceAnswer (e :: s.events), { s with events := e :: s.events })

/-- What passes to a collaborator is recorded. -/
def State.tell (s : State) (e : HostEvent) : State := { s with events := e :: s.events }

/-- `RedBusRead(a)` (20_memory.md R91). -/
def redBusRead (a : Word) (s : State) : Byte × State :=
  if s.rbEnabled then
    match s.activePeripheral with
    | none => (0, s)
    | some p => s.ask (.peripheralRead p (s.localAddress a))
  else (0, s)

/-- `RedBusWrite(a, v)` (20_memory.md R92). -/
def redBusWrite (a : Word) (v : Byte) (s : State) : State :=
  if s.rbEnabled then
    match s.activePeripheral with
    | none => s
    | some p => s.tell (.peripheralWrite p (s.localAddress a) v)
  else s

/-- `BusRead(a)` (20_memory.md R84): the byte and the state after the read. -/
def busRead (a : Word) (s : State) : Except Fault (Byte × State) :=
  match s.busTarget a with
  | .redBus => .ok (redBusRead a s)
  | .ram => .ok (Memory.read s.mem a.toNat, s)
  | .external id offset => .ok (s.ask (.deviceRead id offset))
  | .unmapped => .error (.busUnmapped a)

/-- `BusWrite(a, v)` (20_memory.md R85). -/
def busWrite (a : Word) (v : Byte) (s : State) : Except Fault State :=
  match s.busTarget a with
  | .redBus => .ok (redBusWrite a v s)
  | .ram => .ok { s with mem := Memory.write s.mem a.toNat v }
  | .external id offset => .ok (s.tell (.deviceWrite id offset v))
  | .unmapped => .error (.busUnmapped a)

/-- `MemRead(a, 2)` (00_scope.md R13): the low byte at `a` first, then the high byte at `a +16 1`. -/
def memRead16 (a : Word) (s : State) : Except Fault (Word × State) := do
  let (lo, s) ← busRead a s
  let (hi, s) ← busRead (a + 1) s
  return (mkWord lo hi, s)

/-- `MemReadW(a, w)` (00_scope.md R13). -/
def memReadW (w : Width) (a : Word) (s : State) : Except Fault (Word × State) :=
  match w with
  | .w8 => do
    let (v, s) ← busRead a s
    return (zext v, s)
  | .w16 => memRead16 a s

/-- `MemWriteW(a, w, v)` (00_scope.md R13): the low byte first. -/
def memWriteW (w : Width) (a v : Word) (s : State) : Except Fault State :=
  match w with
  | .w8 => busWrite a (loByte v) s
  | .w16 => do
    let s ← busWrite a (loByte v) s
    busWrite (a + 1) (hiByte v) s

/-- `ZpPtr(z)` (00_scope.md R14): both pointer bytes lie in page 0. -/
def zpPtr (z : Byte) (s : State) : Except Fault (Word × State) := do
  let (lo, s) ← busRead (zext z) s
  let (hi, s) ← busRead (zext (z + 1)) s
  return (mkWord lo hi, s)

/-! ## The data stack (45_stack.md R350) -/

/-- The address of an offset in the data-stack window (10_state.md R33). -/
def State.dstackAddr (s : State) (offset : Byte) : Word := s.params.dstackBase + zext offset

/-- `Push8(v)`. -/
def push8 (v : Byte) (s : State) : Except Fault State := do
  let t ← busWrite (s.dstackAddr s.sp) v s
  return { t with sp := s.sp - 1 }

/-- `Pop8()`. -/
def pop8 (s : State) : Except Fault (Byte × State) := busRead (s.dstackAddr (s.sp + 1)) { s with sp := s.sp + 1 }

/-- `Push16(v)`: the high byte first. -/
def push16 (v : Word) (s : State) : Except Fault State := do
  let s ← push8 (hiByte v) s
  push8 (loByte v) s

/-- `Pop16()`: the low byte first. -/
def pop16 (s : State) : Except Fault (Word × State) := do
  let (lo, s) ← pop8 s
  let (hi, s) ← pop8 s
  return (mkWord lo hi, s)

/-- `PushW(v, w)`. -/
def pushW (w : Width) (v : Word) (s : State) : Except Fault State :=
  match w with
  | .w8 => push8 (loByte v) s
  | .w16 => push16 v s

/-- `PopW(w)`. -/
def popW (w : Width) (s : State) : Except Fault (Word × State) :=
  match w with
  | .w8 => do
    let (v, s) ← pop8 s
    return (zext v, s)
  | .w16 => pop16 s

/-! ## The auxiliary stack (46_aux_stack.md R380) -/

/-- The address of an offset in the auxiliary-stack window (10_state.md R34). -/
def State.rstackAddr (s : State) (offset : Byte) : Word := s.params.rstackBase + zext offset

/-- `RPush8(v)`. -/
def rpush8 (v : Byte) (s : State) : Except Fault State := do
  let t ← busWrite (s.rstackAddr s.r) v s
  return { t with r := s.r - 1 }

/-- `RPop8()`. -/
def rpop8 (s : State) : Except Fault (Byte × State) := busRead (s.rstackAddr (s.r + 1)) { s with r := s.r + 1 }

/-- `RPush16(v)`: the high byte first. -/
def rpush16 (v : Word) (s : State) : Except Fault State := do
  let s ← rpush8 (hiByte v) s
  rpush8 (loByte v) s

/-- `RPop16()`: the low byte first. -/
def rpop16 (s : State) : Except Fault (Word × State) := do
  let (lo, s) ← rpop8 s
  let (hi, s) ← rpop8 s
  return (mkWord lo hi, s)

/-- `RPushW(v, w)`. -/
def rpushW (w : Width) (v : Word) (s : State) : Except Fault State :=
  match w with
  | .w8 => rpush8 (loByte v) s
  | .w16 => rpush16 v s

/-- `RPopW(w)`. -/
def rpopW (w : Width) (s : State) : Except Fault (Word × State) :=
  match w with
  | .w8 => do
    let (v, s) ← rpop8 s
    return (zext v, s)
  | .w16 => rpop16 s

/-! ## Exceptions -/

/-- Taking an interrupt: fB becomes `brk`, the return address and then the status byte are pushed on the data stack, fI is
set, fD is cleared where `P_INT_CLEARS_D` says so, and the vector goes to PC. NMI and IRQ entry take `brk = false`
(60_exceptions.md R487), BRK takes `brk = true` (44_control.md R324, 60_exceptions.md R488). -/
def takeInterrupt (brk : Bool) (returnAddress vector : Word) (s : State) : Except Fault State := do
  let s ← push16 returnAddress { s with fB := brk }
  let s ← push8 s.getP s
  return { s with fI := true, fD := if s.params.intClearsD then false else s.fD, pc := vector }

/-- Returning from an interrupt: the status byte and then the return address are pulled (44_control.md R323). -/
def returnFromInterrupt (s : State) : Except Fault State := do
  let (p, s) ← pop8 s
  let (a, s) ← pop16 (s.setP p)
  return { s with pc := a }

/-- `raise IllegalOpcode(op)`: the trap flag is set and nothing else happens (00_scope.md R16, 60_exceptions.md R480). -/
def raiseIllegalOpcode (s : State) : State := { s with trap := true }

/-- The vector a source gives in a state (00_scope.md R8). -/
def State.vector (s : State) : VectorSource → Word
  | .brkv => s.brkv
  | .constant address => address
  | .function id => Config.vectorFunction id s

/-- `P_IRQ_VECTOR` (00_scope.md R8). -/
def irqVector (s : State) : Word := s.vector s.params.irqVector

/-- `P_NMI_VECTOR` (00_scope.md R8). -/
def nmiVector (s : State) : Word := s.vector s.params.nmiVector

/-! ## Outcomes -/

/-- The outcome of a meaning that either gives a state or ends in a fault. -/
def finish (r : Except Fault State) : Host.Outcome State Fault Refusal :=
  match r with
  | .ok s => .next s
  | .error f => .fault f

end Sys2Proof.Machine
end

