-- ==== Sys2Proof/Machine/Operands.lean ====
section
/-! DEFINITION. The effective address of every addressing mode and the operand reads and writes (40_addressing.md). `PC`
is the address of the byte after the instruction. -/

namespace Sys2Proof.Machine

/-- A pointer in a stack window: its bytes at two offsets of the window, the second wrapping inside it (R188, R190). -/
def windowPtr (addr : Byte → Word) (offset : Byte) (s : State) : Except Fault (Word × State) := do
  let (lo, s) ← busRead (addr offset) s
  let (hi, s) ← busRead (addr (offset + 1)) s
  return (mkWord lo hi, s)

/-- The effective address `EA` of a memory mode, and the state after the reads of its pointer (R174 to R182, R187 to
R190, R192). -/
def effAddr (m : MemMode) (s : State) : Except Fault (Word × State) :=
  match m with
  | .zp z => .ok (zext z, s)
  | .zpX z => .ok (zext (z + loByte s.x), s)
  | .zpY z => .ok (zext (z + loByte s.y), s)
  | .abs w => .ok (w, s)
  | .absX w => .ok (w + s.x, s)
  | .absY w => .ok (w + s.y, s)
  | .izpX z => zpPtr (z + loByte s.x) s
  | .izpY z => do
    let (p, t) ← zpPtr z s
    return (p + s.y, t)
  | .izp z => zpPtr z s
  | .sr o => .ok (s.dstackAddr (s.sp + o), s)
  | .isrY o => do
    let (p, t) ← windowPtr s.dstackAddr (s.sp + o) s
    return (p + s.y, t)
  | .rr o => .ok (s.rstackAddr (s.r + o), s)
  | .irrY o => do
    let (p, t) ← windowPtr s.rstackAddr (s.r + o) s
    return (p + s.y, t)

/-- `Opnd(w)` of an immediate or a memory operand (R196). -/
def readSrc (w : Width) (o : Src) (s : State) : Except Fault (Word × State) :=
  match o with
  | .imm v => .ok (cut w v, s)
  | .mem m => do
    let (ea, s) ← effAddr m s
    memReadW w ea s

/-- A store of a value to a memory operand (R197). -/
def storeMem (w : Width) (m : MemMode) (v : Word) (s : State) : Except Fault State := do
  let (ea, s) ← effAddr m s
  memWriteW w ea v s

/-- A read-modify-write of the accumulator or of memory: the address is computed once, the operand read, `f` of it
written back. The operand as read is answered with the state after the write (R196, R197, R198). -/
def modifyLoc (w : Width) (o : Loc) (f : Word → Word) (s : State) : Except Fault (Word × State) :=
  match o with
  | .acc => .ok (s.acc w, s.setAcc w (f (s.acc w)))
  | .mem m => do
    let (ea, s) ← effAddr m s
    let (v, s) ← memReadW w ea s
    let s ← memWriteW w ea (f v) s
    return (v, s)

/-- The target of a relative branch (R185). -/
def relTarget (b : Byte) (s : State) : Word := s.pc + sext b

/-- The value of a long relative operand (R186). -/
def relValue (w : Word) (s : State) : Word := s.pc + w

/-- The target of `(abs)` (R183). -/
def indirectTarget (w : Word) (s : State) : Except Fault (Word × State) := memRead16 w s

/-- The target of `(abs,X)` (R184). -/
def indexedIndirectTarget (w : Word) (s : State) : Except Fault (Word × State) := memRead16 (w + s.x) s

end Sys2Proof.Machine
end

