-- ==== Sys2Proof/Machine/ArithLogic.lean ====
section
/-! DEFINITION. Logic, addition and subtraction, bit test and compare (41_arith_logic.md): each operation once, over every operand form, and the meaning of
each row of the opcode table. -/

namespace Sys2Proof.Machine

/-- `ORA` (R210). -/
def opOra (o : Src) (s : State) : Except Fault State := do
  let w := s.wM
  let (m, s) ← readSrc w o s
  let r := s.acc w ||| m
  return (s.setAcc w r).setNZ w r

/-- `AND` (R211). -/
def opAnd (o : Src) (s : State) : Except Fault State := do
  let w := s.wM
  let (m, s) ← readSrc w o s
  let r := s.acc w &&& m
  return (s.setAcc w r).setNZ w r

/-- `EOR` (R212). -/
def opEor (o : Src) (s : State) : Except Fault State := do
  let w := s.wM
  let (m, s) ← readSrc w o s
  let r := s.acc w ^^^ m
  return (s.setAcc w r).setNZ w r

/-- `ADC` (R213): binary or, with fD set, decimal. -/
def opAdc (o : Src) (s : State) : Except Fault State := do
  let w := s.wM
  let (m, s) ← readSrc w o s
  let q := if s.fD then addDec w (s.acc w) m s.fC else addBin w (s.acc w) m s.fC
  return s.putAlu w q

/-- `SBC` (R216): binary or, with fD set, decimal. -/
def opSbc (o : Src) (s : State) : Except Fault State := do
  let w := s.wM
  let (m, s) ← readSrc w o s
  let q := if s.fD then subDec w (s.acc w) m s.fC else subBin w (s.acc w) m s.fC
  return s.putAlu w q

/-- `BIT` with a memory operand (R219): fZ from the AND, fN and fV from the operand's two top bits. -/
def opBit (m : MemMode) (s : State) : Except Fault State := do
  let w := s.wM
  let (v, s) ← readSrc w (.mem m) s
  return { s with fZ := (s.acc w &&& v) == 0, fN := topBit w v, fV := v.getLsbD (w.bits - 2) }

/-- `BIT #` (R219): only fZ is written. -/
def opBitImm (v : Word) (s : State) : Except Fault State := do
  let w := s.wM
  let (v, s) ← readSrc w (.imm v) s
  return { s with fZ := (s.acc w &&& v) == 0 }

/-- `TSB` (R220). -/
def opTsb (m : MemMode) (s : State) : Except Fault State := do
  let w := s.wM
  let a := s.acc w
  let (v, s) ← modifyLoc w (.mem m) (fun v => v ||| a) s
  return { s with fZ := (a &&& v) == 0 }

/-- `TRB` (R221). -/
def opTrb (m : MemMode) (s : State) : Except Fault State := do
  let w := s.wM
  let a := s.acc w
  let (v, s) ← modifyLoc w (.mem m) (fun v => v &&& ~~~a) s
  return { s with fZ := (a &&& v) == 0 }

/-- `CMP` (R222). -/
def opCmp (o : Src) (s : State) : Except Fault State := do
  let w := s.wM
  let (m, s) ← readSrc w o s
  return s.compare w (s.acc w) m

/-- `CPX` (R223). -/
def opCpx (o : Src) (s : State) : Except Fault State := do
  let w := s.wX
  let (m, s) ← readSrc w o s
  return s.compare w (cut w s.x) m

/-- `CPY` (R224). -/
def opCpy (o : Src) (s : State) : Except Fault State := do
  let w := s.wX
  let (m, s) ← readSrc w o s
  return s.compare w (cut w s.y) m

/-! ## The rows of the opcode table -/

/-- `ORA (zp,X)` (R210, R180). -/
def execOraIzpX (z : Byte) (s : State) : Host.Outcome State Fault Refusal := finish (opOra (.mem (.izpX z)) s)

/-- `ORA r,S` (R210, R187). -/
def execOraSr (o : Byte) (s : State) : Host.Outcome State Fault Refusal := finish (opOra (.mem (.sr o)) s)

/-- `TSB zp` (R220, R174). -/
def execTsbZp (z : Byte) (s : State) : Host.Outcome State Fault Refusal := finish (opTsb (.zp z) s)

/-- `ORA zp` (R210, R174). -/
def execOraZp (z : Byte) (s : State) : Host.Outcome State Fault Refusal := finish (opOra (.mem (.zp z)) s)

/-- `ORA r,R` (R210, R189). -/
def execOraRr (o : Byte) (s : State) : Host.Outcome State Fault Refusal := finish (opOra (.mem (.rr o)) s)

/-- `ORA #imm` (R210, R173). -/
def execOraImmM (v : Word) (s : State) : Host.Outcome State Fault Refusal := finish (opOra (.imm v) s)

/-- `TSB abs` (R220, R177). -/
def execTsbAbs (w : Word) (s : State) : Host.Outcome State Fault Refusal := finish (opTsb (.abs w) s)

/-- `ORA abs` (R210, R177). -/
def execOraAbs (w : Word) (s : State) : Host.Outcome State Fault Refusal := finish (opOra (.mem (.abs w)) s)

/-- `ORA (zp),Y` (R210, R181). -/
def execOraIzpY (z : Byte) (s : State) : Host.Outcome State Fault Refusal := finish (opOra (.mem (.izpY z)) s)

/-- `ORA (zp)` (R210, R182). -/
def execOraIzp (z : Byte) (s : State) : Host.Outcome State Fault Refusal := finish (opOra (.mem (.izp z)) s)

/-- `ORA (r,S),Y` (R210, R188). -/
def execOraIsrY (o : Byte) (s : State) : Host.Outcome State Fault Refusal := finish (opOra (.mem (.isrY o)) s)

/-- `TRB zp` (R221, R174). -/
def execTrbZp (z : Byte) (s : State) : Host.Outcome State Fault Refusal := finish (opTrb (.zp z) s)

/-- `ORA zp,X` (R210, R175). -/
def execOraZpX (z : Byte) (s : State) : Host.Outcome State Fault Refusal := finish (opOra (.mem (.zpX z)) s)

/-- `ORA (r,R),Y` (R210, R190). -/
def execOraIrrY (o : Byte) (s : State) : Host.Outcome State Fault Refusal := finish (opOra (.mem (.irrY o)) s)

/-- `ORA abs,Y` (R210, R179). -/
def execOraAbsY (w : Word) (s : State) : Host.Outcome State Fault Refusal := finish (opOra (.mem (.absY w)) s)

/-- `TRB abs` (R221, R177). -/
def execTrbAbs (w : Word) (s : State) : Host.Outcome State Fault Refusal := finish (opTrb (.abs w) s)

/-- `ORA abs,X` (R210, R178). -/
def execOraAbsX (w : Word) (s : State) : Host.Outcome State Fault Refusal := finish (opOra (.mem (.absX w)) s)

/-- `AND (zp,X)` (R211, R180). -/
def execAndIzpX (z : Byte) (s : State) : Host.Outcome State Fault Refusal := finish (opAnd (.mem (.izpX z)) s)

/-- `AND r,S` (R211, R187). -/
def execAndSr (o : Byte) (s : State) : Host.Outcome State Fault Refusal := finish (opAnd (.mem (.sr o)) s)

/-- `BIT zp` (R219, R174). -/
def execBitZp (z : Byte) (s : State) : Host.Outcome State Fault Refusal := finish (opBit (.zp z) s)

/-- `AND zp` (R211, R174). -/
def execAndZp (z : Byte) (s : State) : Host.Outcome State Fault Refusal := finish (opAnd (.mem (.zp z)) s)

/-- `AND r,R` (R211, R189). -/
def execAndRr (o : Byte) (s : State) : Host.Outcome State Fault Refusal := finish (opAnd (.mem (.rr o)) s)

/-- `AND #imm` (R211, R173). -/
def execAndImmM (v : Word) (s : State) : Host.Outcome State Fault Refusal := finish (opAnd (.imm v) s)

/-- `BIT abs` (R219, R177). -/
def execBitAbs (w : Word) (s : State) : Host.Outcome State Fault Refusal := finish (opBit (.abs w) s)

/-- `AND abs` (R211, R177). -/
def execAndAbs (w : Word) (s : State) : Host.Outcome State Fault Refusal := finish (opAnd (.mem (.abs w)) s)

/-- `AND (zp),Y` (R211, R181). -/
def execAndIzpY (z : Byte) (s : State) : Host.Outcome State Fault Refusal := finish (opAnd (.mem (.izpY z)) s)

/-- `AND (zp)` (R211, R182). -/
def execAndIzp (z : Byte) (s : State) : Host.Outcome State Fault Refusal := finish (opAnd (.mem (.izp z)) s)

/-- `AND (r,S),Y` (R211, R188). -/
def execAndIsrY (o : Byte) (s : State) : Host.Outcome State Fault Refusal := finish (opAnd (.mem (.isrY o)) s)

/-- `BIT zp,X` (R219, R175). -/
def execBitZpX (z : Byte) (s : State) : Host.Outcome State Fault Refusal := finish (opBit (.zpX z) s)

/-- `AND zp,X` (R211, R175). -/
def execAndZpX (z : Byte) (s : State) : Host.Outcome State Fault Refusal := finish (opAnd (.mem (.zpX z)) s)

/-- `AND (r,R),Y` (R211, R190). -/
def execAndIrrY (o : Byte) (s : State) : Host.Outcome State Fault Refusal := finish (opAnd (.mem (.irrY o)) s)

/-- `AND abs,Y` (R211, R179). -/
def execAndAbsY (w : Word) (s : State) : Host.Outcome State Fault Refusal := finish (opAnd (.mem (.absY w)) s)

/-- `BIT abs,X` (R219, R178). -/
def execBitAbsX (w : Word) (s : State) : Host.Outcome State Fault Refusal := finish (opBit (.absX w) s)

/-- `AND abs,X` (R211, R178). -/
def execAndAbsX (w : Word) (s : State) : Host.Outcome State Fault Refusal := finish (opAnd (.mem (.absX w)) s)

/-- `EOR (zp,X)` (R212, R180). -/
def execEorIzpX (z : Byte) (s : State) : Host.Outcome State Fault Refusal := finish (opEor (.mem (.izpX z)) s)

/-- `EOR r,S` (R212, R187). -/
def execEorSr (o : Byte) (s : State) : Host.Outcome State Fault Refusal := finish (opEor (.mem (.sr o)) s)

/-- `EOR zp` (R212, R174). -/
def execEorZp (z : Byte) (s : State) : Host.Outcome State Fault Refusal := finish (opEor (.mem (.zp z)) s)

/-- `EOR r,R` (R212, R189). -/
def execEorRr (o : Byte) (s : State) : Host.Outcome State Fault Refusal := finish (opEor (.mem (.rr o)) s)

/-- `EOR #imm` (R212, R173). -/
def execEorImmM (v : Word) (s : State) : Host.Outcome State Fault Refusal := finish (opEor (.imm v) s)

/-- `EOR abs` (R212, R177). -/
def execEorAbs (w : Word) (s : State) : Host.Outcome State Fault Refusal := finish (opEor (.mem (.abs w)) s)

/-- `EOR (zp),Y` (R212, R181). -/
def execEorIzpY (z : Byte) (s : State) : Host.Outcome State Fault Refusal := finish (opEor (.mem (.izpY z)) s)

/-- `EOR (zp)` (R212, R182). -/
def execEorIzp (z : Byte) (s : State) : Host.Outcome State Fault Refusal := finish (opEor (.mem (.izp z)) s)

/-- `EOR (r,S),Y` (R212, R188). -/
def execEorIsrY (o : Byte) (s : State) : Host.Outcome State Fault Refusal := finish (opEor (.mem (.isrY o)) s)

/-- `EOR zp,X` (R212, R175). -/
def execEorZpX (z : Byte) (s : State) : Host.Outcome State Fault Refusal := finish (opEor (.mem (.zpX z)) s)

/-- `EOR (r,R),Y` (R212, R190). -/
def execEorIrrY (o : Byte) (s : State) : Host.Outcome State Fault Refusal := finish (opEor (.mem (.irrY o)) s)

/-- `EOR abs,Y` (R212, R179). -/
def execEorAbsY (w : Word) (s : State) : Host.Outcome State Fault Refusal := finish (opEor (.mem (.absY w)) s)

/-- `EOR abs,X` (R212, R178). -/
def execEorAbsX (w : Word) (s : State) : Host.Outcome State Fault Refusal := finish (opEor (.mem (.absX w)) s)

/-- `ADC (zp,X)` (R213, R180). -/
def execAdcIzpX (z : Byte) (s : State) : Host.Outcome State Fault Refusal := finish (opAdc (.mem (.izpX z)) s)

/-- `ADC r,S` (R213, R187). -/
def execAdcSr (o : Byte) (s : State) : Host.Outcome State Fault Refusal := finish (opAdc (.mem (.sr o)) s)

/-- `ADC zp` (R213, R174). -/
def execAdcZp (z : Byte) (s : State) : Host.Outcome State Fault Refusal := finish (opAdc (.mem (.zp z)) s)

/-- `ADC r,R` (R213, R189). -/
def execAdcRr (o : Byte) (s : State) : Host.Outcome State Fault Refusal := finish (opAdc (.mem (.rr o)) s)

/-- `ADC #imm` (R213, R173). -/
def execAdcImmM (v : Word) (s : State) : Host.Outcome State Fault Refusal := finish (opAdc (.imm v) s)

/-- `ADC abs` (R213, R177). -/
def execAdcAbs (w : Word) (s : State) : Host.Outcome State Fault Refusal := finish (opAdc (.mem (.abs w)) s)

/-- `ADC (zp),Y` (R213, R181). -/
def execAdcIzpY (z : Byte) (s : State) : Host.Outcome State Fault Refusal := finish (opAdc (.mem (.izpY z)) s)

/-- `ADC (zp)` (R213, R182). -/
def execAdcIzp (z : Byte) (s : State) : Host.Outcome State Fault Refusal := finish (opAdc (.mem (.izp z)) s)

/-- `ADC (r,S),Y` (R213, R188). -/
def execAdcIsrY (o : Byte) (s : State) : Host.Outcome State Fault Refusal := finish (opAdc (.mem (.isrY o)) s)

/-- `ADC zp,X` (R213, R175). -/
def execAdcZpX (z : Byte) (s : State) : Host.Outcome State Fault Refusal := finish (opAdc (.mem (.zpX z)) s)

/-- `ADC (r,R),Y` (R213, R190). -/
def execAdcIrrY (o : Byte) (s : State) : Host.Outcome State Fault Refusal := finish (opAdc (.mem (.irrY o)) s)

/-- `ADC abs,Y` (R213, R179). -/
def execAdcAbsY (w : Word) (s : State) : Host.Outcome State Fault Refusal := finish (opAdc (.mem (.absY w)) s)

/-- `ADC abs,X` (R213, R178). -/
def execAdcAbsX (w : Word) (s : State) : Host.Outcome State Fault Refusal := finish (opAdc (.mem (.absX w)) s)

/-- `BIT #imm` (R219, R173). -/
def execBitImmM (v : Word) (s : State) : Host.Outcome State Fault Refusal := finish (opBitImm v s)

/-- `CPY #imm` (R224, R173). -/
def execCpyImmX (v : Word) (s : State) : Host.Outcome State Fault Refusal := finish (opCpy (.imm v) s)

/-- `CMP (zp,X)` (R222, R180). -/
def execCmpIzpX (z : Byte) (s : State) : Host.Outcome State Fault Refusal := finish (opCmp (.mem (.izpX z)) s)

/-- `CMP r,S` (R222, R187). -/
def execCmpSr (o : Byte) (s : State) : Host.Outcome State Fault Refusal := finish (opCmp (.mem (.sr o)) s)

/-- `CPY zp` (R224, R174). -/
def execCpyZp (z : Byte) (s : State) : Host.Outcome State Fault Refusal := finish (opCpy (.mem (.zp z)) s)

/-- `CMP zp` (R222, R174). -/
def execCmpZp (z : Byte) (s : State) : Host.Outcome State Fault Refusal := finish (opCmp (.mem (.zp z)) s)

/-- `CMP r,R` (R222, R189). -/
def execCmpRr (o : Byte) (s : State) : Host.Outcome State Fault Refusal := finish (opCmp (.mem (.rr o)) s)

/-- `CMP #imm` (R222, R173). -/
def execCmpImmM (v : Word) (s : State) : Host.Outcome State Fault Refusal := finish (opCmp (.imm v) s)

/-- `CPY abs` (R224, R177). -/
def execCpyAbs (w : Word) (s : State) : Host.Outcome State Fault Refusal := finish (opCpy (.mem (.abs w)) s)

/-- `CMP abs` (R222, R177). -/
def execCmpAbs (w : Word) (s : State) : Host.Outcome State Fault Refusal := finish (opCmp (.mem (.abs w)) s)

/-- `CMP (zp),Y` (R222, R181). -/
def execCmpIzpY (z : Byte) (s : State) : Host.Outcome State Fault Refusal := finish (opCmp (.mem (.izpY z)) s)

/-- `CMP (zp)` (R222, R182). -/
def execCmpIzp (z : Byte) (s : State) : Host.Outcome State Fault Refusal := finish (opCmp (.mem (.izp z)) s)

/-- `CMP (r,S),Y` (R222, R188). -/
def execCmpIsrY (o : Byte) (s : State) : Host.Outcome State Fault Refusal := finish (opCmp (.mem (.isrY o)) s)

/-- `CMP zp,X` (R222, R175). -/
def execCmpZpX (z : Byte) (s : State) : Host.Outcome State Fault Refusal := finish (opCmp (.mem (.zpX z)) s)

/-- `CMP (r,R),Y` (R222, R190). -/
def execCmpIrrY (o : Byte) (s : State) : Host.Outcome State Fault Refusal := finish (opCmp (.mem (.irrY o)) s)

/-- `CMP abs,Y` (R222, R179). -/
def execCmpAbsY (w : Word) (s : State) : Host.Outcome State Fault Refusal := finish (opCmp (.mem (.absY w)) s)

/-- `CMP abs,X` (R222, R178). -/
def execCmpAbsX (w : Word) (s : State) : Host.Outcome State Fault Refusal := finish (opCmp (.mem (.absX w)) s)

/-- `CPX #imm` (R223, R173). -/
def execCpxImmX (v : Word) (s : State) : Host.Outcome State Fault Refusal := finish (opCpx (.imm v) s)

/-- `SBC (zp,X)` (R216, R180). -/
def execSbcIzpX (z : Byte) (s : State) : Host.Outcome State Fault Refusal := finish (opSbc (.mem (.izpX z)) s)

/-- `SBC r,S` (R216, R187). -/
def execSbcSr (o : Byte) (s : State) : Host.Outcome State Fault Refusal := finish (opSbc (.mem (.sr o)) s)

/-- `CPX zp` (R223, R174). -/
def execCpxZp (z : Byte) (s : State) : Host.Outcome State Fault Refusal := finish (opCpx (.mem (.zp z)) s)

/-- `SBC zp` (R216, R174). -/
def execSbcZp (z : Byte) (s : State) : Host.Outcome State Fault Refusal := finish (opSbc (.mem (.zp z)) s)

/-- `SBC r,R` (R216, R189). -/
def execSbcRr (o : Byte) (s : State) : Host.Outcome State Fault Refusal := finish (opSbc (.mem (.rr o)) s)

/-- `SBC #imm` (R216, R173). -/
def execSbcImmM (v : Word) (s : State) : Host.Outcome State Fault Refusal := finish (opSbc (.imm v) s)

/-- `CPX abs` (R223, R177). -/
def execCpxAbs (w : Word) (s : State) : Host.Outcome State Fault Refusal := finish (opCpx (.mem (.abs w)) s)

/-- `SBC abs` (R216, R177). -/
def execSbcAbs (w : Word) (s : State) : Host.Outcome State Fault Refusal := finish (opSbc (.mem (.abs w)) s)

/-- `SBC (zp),Y` (R216, R181). -/
def execSbcIzpY (z : Byte) (s : State) : Host.Outcome State Fault Refusal := finish (opSbc (.mem (.izpY z)) s)

/-- `SBC (zp)` (R216, R182). -/
def execSbcIzp (z : Byte) (s : State) : Host.Outcome State Fault Refusal := finish (opSbc (.mem (.izp z)) s)

/-- `SBC (r,S),Y` (R216, R188). -/
def execSbcIsrY (o : Byte) (s : State) : Host.Outcome State Fault Refusal := finish (opSbc (.mem (.isrY o)) s)

/-- `SBC zp,X` (R216, R175). -/
def execSbcZpX (z : Byte) (s : State) : Host.Outcome State Fault Refusal := finish (opSbc (.mem (.zpX z)) s)

/-- `SBC (r,R),Y` (R216, R190). -/
def execSbcIrrY (o : Byte) (s : State) : Host.Outcome State Fault Refusal := finish (opSbc (.mem (.irrY o)) s)

/-- `SBC abs,Y` (R216, R179). -/
def execSbcAbsY (w : Word) (s : State) : Host.Outcome State Fault Refusal := finish (opSbc (.mem (.absY w)) s)

/-- `SBC abs,X` (R216, R178). -/
def execSbcAbsX (w : Word) (s : State) : Host.Outcome State Fault Refusal := finish (opSbc (.mem (.absX w)) s)

end Sys2Proof.Machine
end

