-- ==== Sys2Proof/Machine/AuxStack.lean ====
section
/-! DEFINITION. The auxiliary stack and the indirect-execution register (46_aux_stack.md): each operation once, over every operand form, and the meaning of
each row of the opcode table. -/

namespace Sys2Proof.Machine

/-- `RHA` (R381). -/
def opRha (s : State) : Except Fault State := rpushW s.wM (s.acc s.wM) s

/-- `RLA` (R382). -/
def opRla (s : State) : Except Fault State := do
  let w := s.wM
  let (v, s) ← rpopW w s
  return (s.setAcc w v).setNZ w v

/-- `RHX` (R383). -/
def opRhx (s : State) : Except Fault State := rpushW s.wX (cut s.wX s.x) s

/-- `RLX` (R384). -/
def opRlx (s : State) : Except Fault State := do
  let w := s.wX
  let (v, s) ← rpopW w s
  return (s.setX w v).setNZ w v

/-- `RHY` (R385). -/
def opRhy (s : State) : Except Fault State := rpushW s.wX (cut s.wX s.y) s

/-- `RLY` (R386). -/
def opRly (s : State) : Except Fault State := do
  let w := s.wX
  let (v, s) ← rpopW w s
  return (s.setY w v).setNZ w v

/-- `RHI` (R387): 16 bits in every mode. -/
def opRhi (s : State) : Except Fault State := rpush16 s.i s

/-- `RLI` (R388): 16 bits in every mode. -/
def opRli (s : State) : Except Fault State := do
  let (v, s) ← rpop16 s
  return { s with i := v }.setNZ .w16 v

/-- `TXR` (R389). -/
def opTxr (s : State) : Except Fault State := .ok { s with r := loByte s.x }

/-- `TRX` (R390). -/
def opTrx (s : State) : Except Fault State := .ok ({ s with x := zext s.r }.setNZ s.wX (zext s.r))

/-- `TXI` (R391). -/
def opTxi (s : State) : Except Fault State := .ok { s with i := s.x }

/-- `TIX` (R392). -/
def opTix (s : State) : Except Fault State := .ok ((s.setX s.wX s.i).setNZ s.wX s.i)

/-- `ENT` (R393). -/
def opEnt (w : Word) (s : State) : Except Fault State := do
  let s ← rpush16 s.i s
  return { s with i := s.pc, pc := w }

/-- `NXT` (R394). -/
def opNxt (s : State) : Except Fault State := do
  let (t, s) ← memRead16 s.i s
  return { s with pc := t, i := s.i + 2 }

/-- `NXA` (R395): `I` steps by the width in bytes. -/
def opNxa (s : State) : Except Fault State := do
  let w := s.wM
  let (v, s) ← memReadW w s.i s
  return { (s.setAcc w v).setNZ w v with i := s.i + BitVec.ofNat 16 w.bytes }

/-- `REA` (R396). -/
def opRea (w : Word) (s : State) : Except Fault State := rpush16 w s

/-- `REI` (R397). -/
def opRei (z : Byte) (s : State) : Except Fault State := do
  let (p, s) ← zpPtr z s
  rpush16 p s

/-- `RER` (R398). -/
def opRer (w : Word) (s : State) : Except Fault State := rpush16 (relValue w s) s

/-! ## The rows of the opcode table -/

/-- `NXT` (R394). -/
def execNxt (s : State) : Host.Outcome State Fault Refusal := finish (opNxt s)

/-- `RHI` (R387). -/
def execRhi (s : State) : Host.Outcome State Fault Refusal := finish (opRhi s)

/-- `RHX` (R383). -/
def execRhx (s : State) : Host.Outcome State Fault Refusal := finish (opRhx s)

/-- `ENT abs` (R393, R177). -/
def execEnt (w : Word) (s : State) : Host.Outcome State Fault Refusal := finish (opEnt w s)

/-- `RLI` (R388). -/
def execRli (s : State) : Host.Outcome State Fault Refusal := finish (opRli s)

/-- `RLX` (R384). -/
def execRlx (s : State) : Host.Outcome State Fault Refusal := finish (opRlx s)

/-- `NXA` (R395). -/
def execNxa (s : State) : Host.Outcome State Fault Refusal := finish (opNxa s)

/-- `REA abs` (R396, R177). -/
def execRea (w : Word) (s : State) : Host.Outcome State Fault Refusal := finish (opRea w s)

/-- `RHA` (R381). -/
def execRha (s : State) : Host.Outcome State Fault Refusal := finish (opRha s)

/-- `REI (zp)` (R397, R182). -/
def execRei (z : Byte) (s : State) : Host.Outcome State Fault Refusal := finish (opRei z s)

/-- `RHY` (R385). -/
def execRhy (s : State) : Host.Outcome State Fault Refusal := finish (opRhy s)

/-- `TXI` (R391). -/
def execTxi (s : State) : Host.Outcome State Fault Refusal := finish (opTxi s)

/-- `RLA` (R382). -/
def execRla (s : State) : Host.Outcome State Fault Refusal := finish (opRla s)

/-- `RLY` (R386). -/
def execRly (s : State) : Host.Outcome State Fault Refusal := finish (opRly s)

/-- `RER rel16` (R398, R186). -/
def execRer (w : Word) (s : State) : Host.Outcome State Fault Refusal := finish (opRer w s)

/-- `TXR` (R389). -/
def execTxr (s : State) : Host.Outcome State Fault Refusal := finish (opTxr s)

/-- `TRX` (R390). -/
def execTrx (s : State) : Host.Outcome State Fault Refusal := finish (opTrx s)

/-- `TIX` (R392). -/
def execTix (s : State) : Host.Outcome State Fault Refusal := finish (opTix s)

end Sys2Proof.Machine
end

