-- ==== Sys2Proof/Machine/Control.lean ====
section
/-! DEFINITION. Branches, jumps, subroutine linkage, RTI and BRK. `PC` is the address of the byte after the instruction (44_control.md): each operation once, over every operand form, and the meaning of
each row of the opcode table. -/

namespace Sys2Proof.Machine

/-- A branch (R310): to the target if the condition holds, else on. No flag is written. -/
def branchIf (taken : Bool) (b : Byte) (s : State) : Except Fault State :=
  .ok (if taken then { s with pc := relTarget b s } else s)

/-- `BPL` (R311). -/
def opBpl (b : Byte) (s : State) : Except Fault State := branchIf (!s.fN) b s

/-- `BMI` (R312). -/
def opBmi (b : Byte) (s : State) : Except Fault State := branchIf s.fN b s

/-- `BVC` (R313). -/
def opBvc (b : Byte) (s : State) : Except Fault State := branchIf (!s.fV) b s

/-- `BVS` (R314). -/
def opBvs (b : Byte) (s : State) : Except Fault State := branchIf s.fV b s

/-- `BCC` (R315). -/
def opBcc (b : Byte) (s : State) : Except Fault State := branchIf (!s.fC) b s

/-- `BCS` (R316). -/
def opBcs (b : Byte) (s : State) : Except Fault State := branchIf s.fC b s

/-- `BNE` (R317). -/
def opBne (b : Byte) (s : State) : Except Fault State := branchIf (!s.fZ) b s

/-- `BEQ` (R318). -/
def opBeq (b : Byte) (s : State) : Except Fault State := branchIf s.fZ b s

/-- `BRA` (R319). -/
def opBra (b : Byte) (s : State) : Except Fault State := branchIf true b s

/-- `JMP abs` (R320). -/
def opJmp (w : Word) (s : State) : Except Fault State := .ok { s with pc := w }

/-- `JMP (abs)` (R320). -/
def opJmpIndirect (w : Word) (s : State) : Except Fault State := do
  let (t, s) ← indirectTarget w s
  return { s with pc := t }

/-- `JMP (abs,X)` (R320). -/
def opJmpIndexed (w : Word) (s : State) : Except Fault State := do
  let (t, s) ← indexedIndirectTarget w s
  return { s with pc := t }

/-- `JSR abs` (R321): the pushed address is that of the last byte of the instruction. -/
def opJsr (w : Word) (s : State) : Except Fault State := do
  let s ← push16 (s.pc - 1) s
  return { s with pc := w }

/-- `JSR (abs,X)` (R321): the target is resolved before the push. -/
def opJsrIndexed (w : Word) (s : State) : Except Fault State := do
  let (t, s) ← indexedIndirectTarget w s
  let s ← push16 (s.pc - 1) s
  return { s with pc := t }

/-- `RTS` (R322). -/
def opRts (s : State) : Except Fault State := do
  let (a, s) ← pop16 s
  return { s with pc := a + 1 }

/-- `RTI` (R323). -/
def opRti (s : State) : Except Fault State := returnFromInterrupt s

/-- `BRK` (R324): the return address is the opcode's address `+16 2`, one past `PC`. -/
def opBrk (s : State) : Except Fault State := takeInterrupt true (s.pc + 1) s.brkv s

/-! ## The rows of the opcode table -/

/-- `BRK` (R324). -/
def execBrk (s : State) : Host.Outcome State Fault Refusal := finish (opBrk s)

/-- `BPL rel` (R311, R185). -/
def execBpl (b : Byte) (s : State) : Host.Outcome State Fault Refusal := finish (opBpl b s)

/-- `JSR abs` (R321, R177). -/
def execJsrAbs (w : Word) (s : State) : Host.Outcome State Fault Refusal := finish (opJsr w s)

/-- `BMI rel` (R312, R185). -/
def execBmi (b : Byte) (s : State) : Host.Outcome State Fault Refusal := finish (opBmi b s)

/-- `RTI` (R323). -/
def execRti (s : State) : Host.Outcome State Fault Refusal := finish (opRti s)

/-- `JMP abs` (R320, R177). -/
def execJmpAbs (w : Word) (s : State) : Host.Outcome State Fault Refusal := finish (opJmp w s)

/-- `BVC rel` (R313, R185). -/
def execBvc (b : Byte) (s : State) : Host.Outcome State Fault Refusal := finish (opBvc b s)

/-- `RTS` (R322). -/
def execRts (s : State) : Host.Outcome State Fault Refusal := finish (opRts s)

/-- `JMP (abs)` (R320, R183). -/
def execJmpIabs (w : Word) (s : State) : Host.Outcome State Fault Refusal := finish (opJmpIndirect w s)

/-- `BVS rel` (R314, R185). -/
def execBvs (b : Byte) (s : State) : Host.Outcome State Fault Refusal := finish (opBvs b s)

/-- `JMP (abs,X)` (R320, R184). -/
def execJmpIabsX (w : Word) (s : State) : Host.Outcome State Fault Refusal := finish (opJmpIndexed w s)

/-- `BRA rel` (R319, R185). -/
def execBra (b : Byte) (s : State) : Host.Outcome State Fault Refusal := finish (opBra b s)

/-- `BCC rel` (R315, R185). -/
def execBcc (b : Byte) (s : State) : Host.Outcome State Fault Refusal := finish (opBcc b s)

/-- `BCS rel` (R316, R185). -/
def execBcs (b : Byte) (s : State) : Host.Outcome State Fault Refusal := finish (opBcs b s)

/-- `BNE rel` (R317, R185). -/
def execBne (b : Byte) (s : State) : Host.Outcome State Fault Refusal := finish (opBne b s)

/-- `BEQ rel` (R318, R185). -/
def execBeq (b : Byte) (s : State) : Host.Outcome State Fault Refusal := finish (opBeq b s)

/-- `JSR (abs,X)` (R321, R184). -/
def execJsrIabsX (w : Word) (s : State) : Host.Outcome State Fault Refusal := finish (opJsrIndexed w s)

end Sys2Proof.Machine
end

