-- ==== Sys2Proof/Machine/LoadStoreTransfer.lean ====
section
/-! DEFINITION. Loads, stores, register transfers, flag operations and NOP (43_load_store_transfer.md): each operation once, over every operand form, and the meaning of
each row of the opcode table. -/

namespace Sys2Proof.Machine

/-- `LDA` (R270). -/
def opLda (o : Src) (s : State) : Except Fault State := do
  let w := s.wM
  let (v, s) ← readSrc w o s
  return (s.setAcc w v).setNZ w v

/-- `LDX` (R271). -/
def opLdx (o : Src) (s : State) : Except Fault State := do
  let w := s.wX
  let (v, s) ← readSrc w o s
  return (s.setX w v).setNZ w v

/-- `LDY` (R272). -/
def opLdy (o : Src) (s : State) : Except Fault State := do
  let w := s.wX
  let (v, s) ← readSrc w o s
  return (s.setY w v).setNZ w v

/-- `STA` (R273). -/
def opSta (m : MemMode) (s : State) : Except Fault State := storeMem s.wM m (s.acc s.wM) s

/-- `STX` (R274). -/
def opStx (m : MemMode) (s : State) : Except Fault State := storeMem s.wX m (cut s.wX s.x) s

/-- `STY` (R275). -/
def opSty (m : MemMode) (s : State) : Except Fault State := storeMem s.wX m (cut s.wX s.y) s

/-- `STZ` (R276). -/
def opStz (m : MemMode) (s : State) : Except Fault State := storeMem s.wM m 0 s

/-- `TAX` (R277): at index width 16 the whole `AH:AL` is copied, whatever fM is. -/
def opTax (s : State) : Except Fault State := .ok ((s.setX s.wX s.a16).setNZ s.wX s.a16)

/-- `TAY` (R278). -/
def opTay (s : State) : Except Fault State := .ok ((s.setY s.wX s.a16).setNZ s.wX s.a16)

/-- `TXA` (R279). -/
def opTxa (s : State) : Except Fault State := .ok ((s.setAcc s.wM s.x).setNZ s.wM s.x)

/-- `TYA` (R280). -/
def opTya (s : State) : Except Fault State := .ok ((s.setAcc s.wM s.y).setNZ s.wM s.y)

/-- `TXY` (R281). -/
def opTxy (s : State) : Except Fault State := .ok ((s.setY s.wX s.x).setNZ s.wX s.x)

/-- `TYX` (R282). -/
def opTyx (s : State) : Except Fault State := .ok ((s.setX s.wX s.y).setNZ s.wX s.y)

/-- `TSX` (R283). -/
def opTsx (s : State) : Except Fault State := .ok ({ s with x := zext s.sp }.setNZ s.wX (zext s.sp))

/-- `TXS` (R284): no flag is written. -/
def opTxs (s : State) : Except Fault State := .ok { s with sp := loByte s.x }

/-- `CLC` (R285). -/
def opClc (s : State) : Except Fault State := .ok { s with fC := false }

/-- `SEC` (R286). -/
def opSec (s : State) : Except Fault State := .ok { s with fC := true }

/-- `CLI` (R287). -/
def opCli (s : State) : Except Fault State := .ok { s with fI := false }

/-- `SEI` (R288). -/
def opSei (s : State) : Except Fault State := .ok { s with fI := true }

/-- `CLD` (R289). -/
def opCld (s : State) : Except Fault State := .ok { s with fD := false }

/-- `SED` (R290). -/
def opSed (s : State) : Except Fault State := .ok { s with fD := true }

/-- `CLV` (R291). -/
def opClv (s : State) : Except Fault State := .ok { s with fV := false }

/-- `NOP` (R292). -/
def opNop (s : State) : Except Fault State := .ok s

/-! ## The rows of the opcode table -/

/-- `CLC` (R285). -/
def execClc (s : State) : Host.Outcome State Fault Refusal := finish (opClc s)

/-- `SEC` (R286). -/
def execSec (s : State) : Host.Outcome State Fault Refusal := finish (opSec s)

/-- `CLI` (R287). -/
def execCli (s : State) : Host.Outcome State Fault Refusal := finish (opCli s)

/-- `STZ zp` (R276, R174). -/
def execStzZp (z : Byte) (s : State) : Host.Outcome State Fault Refusal := finish (opStz (.zp z) s)

/-- `STZ zp,X` (R276, R175). -/
def execStzZpX (z : Byte) (s : State) : Host.Outcome State Fault Refusal := finish (opStz (.zpX z) s)

/-- `SEI` (R288). -/
def execSei (s : State) : Host.Outcome State Fault Refusal := finish (opSei s)

/-- `STA (zp,X)` (R273, R180). -/
def execStaIzpX (z : Byte) (s : State) : Host.Outcome State Fault Refusal := finish (opSta (.izpX z) s)

/-- `STA r,S` (R273, R187). -/
def execStaSr (o : Byte) (s : State) : Host.Outcome State Fault Refusal := finish (opSta (.sr o) s)

/-- `STY zp` (R275, R174). -/
def execStyZp (z : Byte) (s : State) : Host.Outcome State Fault Refusal := finish (opSty (.zp z) s)

/-- `STA zp` (R273, R174). -/
def execStaZp (z : Byte) (s : State) : Host.Outcome State Fault Refusal := finish (opSta (.zp z) s)

/-- `STX zp` (R274, R174). -/
def execStxZp (z : Byte) (s : State) : Host.Outcome State Fault Refusal := finish (opStx (.zp z) s)

/-- `STA r,R` (R273, R189). -/
def execStaRr (o : Byte) (s : State) : Host.Outcome State Fault Refusal := finish (opSta (.rr o) s)

/-- `TXA` (R279). -/
def execTxa (s : State) : Host.Outcome State Fault Refusal := finish (opTxa s)

/-- `STY abs` (R275, R177). -/
def execStyAbs (w : Word) (s : State) : Host.Outcome State Fault Refusal := finish (opSty (.abs w) s)

/-- `STA abs` (R273, R177). -/
def execStaAbs (w : Word) (s : State) : Host.Outcome State Fault Refusal := finish (opSta (.abs w) s)

/-- `STX abs` (R274, R177). -/
def execStxAbs (w : Word) (s : State) : Host.Outcome State Fault Refusal := finish (opStx (.abs w) s)

/-- `STA (zp),Y` (R273, R181). -/
def execStaIzpY (z : Byte) (s : State) : Host.Outcome State Fault Refusal := finish (opSta (.izpY z) s)

/-- `STA (zp)` (R273, R182). -/
def execStaIzp (z : Byte) (s : State) : Host.Outcome State Fault Refusal := finish (opSta (.izp z) s)

/-- `STA (r,S),Y` (R273, R188). -/
def execStaIsrY (o : Byte) (s : State) : Host.Outcome State Fault Refusal := finish (opSta (.isrY o) s)

/-- `STY zp,X` (R275, R175). -/
def execStyZpX (z : Byte) (s : State) : Host.Outcome State Fault Refusal := finish (opSty (.zpX z) s)

/-- `STA zp,X` (R273, R175). -/
def execStaZpX (z : Byte) (s : State) : Host.Outcome State Fault Refusal := finish (opSta (.zpX z) s)

/-- `STX zp,Y` (R274, R176). -/
def execStxZpY (z : Byte) (s : State) : Host.Outcome State Fault Refusal := finish (opStx (.zpY z) s)

/-- `STA (r,R),Y` (R273, R190). -/
def execStaIrrY (o : Byte) (s : State) : Host.Outcome State Fault Refusal := finish (opSta (.irrY o) s)

/-- `TYA` (R280). -/
def execTya (s : State) : Host.Outcome State Fault Refusal := finish (opTya s)

/-- `STA abs,Y` (R273, R179). -/
def execStaAbsY (w : Word) (s : State) : Host.Outcome State Fault Refusal := finish (opSta (.absY w) s)

/-- `TXS` (R284). -/
def execTxs (s : State) : Host.Outcome State Fault Refusal := finish (opTxs s)

/-- `TXY` (R281). -/
def execTxy (s : State) : Host.Outcome State Fault Refusal := finish (opTxy s)

/-- `STZ abs` (R276, R177). -/
def execStzAbs (w : Word) (s : State) : Host.Outcome State Fault Refusal := finish (opStz (.abs w) s)

/-- `STA abs,X` (R273, R178). -/
def execStaAbsX (w : Word) (s : State) : Host.Outcome State Fault Refusal := finish (opSta (.absX w) s)

/-- `STZ abs,X` (R276, R178). -/
def execStzAbsX (w : Word) (s : State) : Host.Outcome State Fault Refusal := finish (opStz (.absX w) s)

/-- `LDY #imm` (R272, R173). -/
def execLdyImmX (v : Word) (s : State) : Host.Outcome State Fault Refusal := finish (opLdy (.imm v) s)

/-- `LDA (zp,X)` (R270, R180). -/
def execLdaIzpX (z : Byte) (s : State) : Host.Outcome State Fault Refusal := finish (opLda (.mem (.izpX z)) s)

/-- `LDX #imm` (R271, R173). -/
def execLdxImmX (v : Word) (s : State) : Host.Outcome State Fault Refusal := finish (opLdx (.imm v) s)

/-- `LDA r,S` (R270, R187). -/
def execLdaSr (o : Byte) (s : State) : Host.Outcome State Fault Refusal := finish (opLda (.mem (.sr o)) s)

/-- `LDY zp` (R272, R174). -/
def execLdyZp (z : Byte) (s : State) : Host.Outcome State Fault Refusal := finish (opLdy (.mem (.zp z)) s)

/-- `LDA zp` (R270, R174). -/
def execLdaZp (z : Byte) (s : State) : Host.Outcome State Fault Refusal := finish (opLda (.mem (.zp z)) s)

/-- `LDX zp` (R271, R174). -/
def execLdxZp (z : Byte) (s : State) : Host.Outcome State Fault Refusal := finish (opLdx (.mem (.zp z)) s)

/-- `LDA r,R` (R270, R189). -/
def execLdaRr (o : Byte) (s : State) : Host.Outcome State Fault Refusal := finish (opLda (.mem (.rr o)) s)

/-- `TAY` (R278). -/
def execTay (s : State) : Host.Outcome State Fault Refusal := finish (opTay s)

/-- `LDA #imm` (R270, R173). -/
def execLdaImmM (v : Word) (s : State) : Host.Outcome State Fault Refusal := finish (opLda (.imm v) s)

/-- `TAX` (R277). -/
def execTax (s : State) : Host.Outcome State Fault Refusal := finish (opTax s)

/-- `LDY abs` (R272, R177). -/
def execLdyAbs (w : Word) (s : State) : Host.Outcome State Fault Refusal := finish (opLdy (.mem (.abs w)) s)

/-- `LDA abs` (R270, R177). -/
def execLdaAbs (w : Word) (s : State) : Host.Outcome State Fault Refusal := finish (opLda (.mem (.abs w)) s)

/-- `LDX abs` (R271, R177). -/
def execLdxAbs (w : Word) (s : State) : Host.Outcome State Fault Refusal := finish (opLdx (.mem (.abs w)) s)

/-- `LDA (zp),Y` (R270, R181). -/
def execLdaIzpY (z : Byte) (s : State) : Host.Outcome State Fault Refusal := finish (opLda (.mem (.izpY z)) s)

/-- `LDA (zp)` (R270, R182). -/
def execLdaIzp (z : Byte) (s : State) : Host.Outcome State Fault Refusal := finish (opLda (.mem (.izp z)) s)

/-- `LDA (r,S),Y` (R270, R188). -/
def execLdaIsrY (o : Byte) (s : State) : Host.Outcome State Fault Refusal := finish (opLda (.mem (.isrY o)) s)

/-- `LDY zp,X` (R272, R175). -/
def execLdyZpX (z : Byte) (s : State) : Host.Outcome State Fault Refusal := finish (opLdy (.mem (.zpX z)) s)

/-- `LDA zp,X` (R270, R175). -/
def execLdaZpX (z : Byte) (s : State) : Host.Outcome State Fault Refusal := finish (opLda (.mem (.zpX z)) s)

/-- `LDX zp,Y` (R271, R176). -/
def execLdxZpY (z : Byte) (s : State) : Host.Outcome State Fault Refusal := finish (opLdx (.mem (.zpY z)) s)

/-- `LDA (r,R),Y` (R270, R190). -/
def execLdaIrrY (o : Byte) (s : State) : Host.Outcome State Fault Refusal := finish (opLda (.mem (.irrY o)) s)

/-- `CLV` (R291). -/
def execClv (s : State) : Host.Outcome State Fault Refusal := finish (opClv s)

/-- `LDA abs,Y` (R270, R179). -/
def execLdaAbsY (w : Word) (s : State) : Host.Outcome State Fault Refusal := finish (opLda (.mem (.absY w)) s)

/-- `TSX` (R283). -/
def execTsx (s : State) : Host.Outcome State Fault Refusal := finish (opTsx s)

/-- `TYX` (R282). -/
def execTyx (s : State) : Host.Outcome State Fault Refusal := finish (opTyx s)

/-- `LDY abs,X` (R272, R178). -/
def execLdyAbsX (w : Word) (s : State) : Host.Outcome State Fault Refusal := finish (opLdy (.mem (.absX w)) s)

/-- `LDA abs,X` (R270, R178). -/
def execLdaAbsX (w : Word) (s : State) : Host.Outcome State Fault Refusal := finish (opLda (.mem (.absX w)) s)

/-- `LDX abs,Y` (R271, R179). -/
def execLdxAbsY (w : Word) (s : State) : Host.Outcome State Fault Refusal := finish (opLdx (.mem (.absY w)) s)

/-- `CLD` (R289). -/
def execCld (s : State) : Host.Outcome State Fault Refusal := finish (opCld s)

/-- `NOP` (R292). -/
def execNop (s : State) : Host.Outcome State Fault Refusal := finish (opNop s)

/-- `SED` (R290). -/
def execSed (s : State) : Host.Outcome State Fault Refusal := finish (opSed s)

end Sys2Proof.Machine
end

