-- ==== Sys2Proof/Machine/ModeSwitch.lean ====
section
/-! DEFINITION. REP, SEP, XCE and XBA (47_mode_switch.md): each operation once, over every operand form, and the meaning of
each row of the opcode table. -/

namespace Sys2Proof.Machine

/-- `REP` (R410): the flags whose mask bit is 1 are cleared, fM and fX only outside emulation mode. -/
def opRep (k : Byte) (s : State) : Except Fault State :=
  let s := { s with
    fN := s.fN && !k.getLsbD 7, fV := s.fV && !k.getLsbD 6, fD := s.fD && !k.getLsbD 3, fI := s.fI && !k.getLsbD 2,
    fZ := s.fZ && !k.getLsbD 1, fC := s.fC && !k.getLsbD 0 }
  if s.fE then .ok s else .ok { s with fM := s.fM && !k.getLsbD 5, fX := s.fX && !k.getLsbD 4 }

/-- `SEP` (R411): the flags whose mask bit is 1 are set, fM and fX only outside emulation mode; setting fX cuts the
index registers. -/
def opSep (k : Byte) (s : State) : Except Fault State :=
  let s := { s with
    fN := s.fN || k.getLsbD 7, fV := s.fV || k.getLsbD 6, fD := s.fD || k.getLsbD 3, fI := s.fI || k.getLsbD 2,
    fZ := s.fZ || k.getLsbD 1, fC := s.fC || k.getLsbD 0 }
  if s.fE then .ok s
  else
    let s := { s with fM := s.fM || k.getLsbD 5 }
    if k.getLsbD 4 then .ok { s with fX := true }.cutIndex else .ok s

/-- `XCE` (R412): entering emulation mode sets both widths to 8 and cuts the index registers; `AH` stays. -/
def opXce (s : State) : Except Fault State :=
  let s := { s with fC := s.fE, fE := s.fC }
  if s.fE then .ok { s with fM := true, fX := true }.cutIndex else .ok s

/-- `XBA` (R413): N and Z come from the new `AL`, at 8 bits in both widths. -/
def opXba (s : State) : Except Fault State := .ok ({ s with al := s.ah, ah := s.al }.setNZ .w8 (zext s.ah))

/-! ## The rows of the opcode table -/

/-- `REP #imm8` (R410, R173). -/
def execRep (k : Byte) (s : State) : Host.Outcome State Fault Refusal := finish (opRep k s)

/-- `SEP #imm8` (R411, R173). -/
def execSep (k : Byte) (s : State) : Host.Outcome State Fault Refusal := finish (opSep k s)

/-- `XBA` (R413). -/
def execXba (s : State) : Host.Outcome State Fault Refusal := finish (opXba s)

/-- `XCE` (R412). -/
def execXce (s : State) : Host.Outcome State Fault Refusal := finish (opXce s)

end Sys2Proof.Machine
end

