-- ==== Sys2Proof/Machine/MulDiv.lean ====
section
/-! DEFINITION. Multiply, divide and the D register (48_muldiv.md): each operation once, over every operand form, and the meaning of
each row of the opcode table. -/

namespace Sys2Proof.Machine

/-- `MUL` (R430): 16-bit operands whatever fM is, the 32-bit product in `D:AH:AL`. -/
def opMul (m : MemMode) (s : State) : Except Fault State := do
  let (v, s) ← readSrc .w16 (.mem m) s
  let p := product s.mulDivSigned s.a16 v
  return { s.setAcc .w16 (p.setWidth 16) with d := (p >>> 16).setWidth 16, fN := p.getLsbD 31, fZ := p == 0 }

/-- `DIV` (R431): `D:AH:AL` by a 16-bit divisor; division by zero sets fV and leaves the accumulator and D at zero. -/
def opDiv (m : MemMode) (s : State) : Except Fault State := do
  let (v, s) ← readSrc .w16 (.mem m) s
  if v = 0 then
    return { s with al := 0, ah := 0, d := 0, fV := true, fZ := true, fN := false }
  else
    let q := quotient s.mulDivSigned (s.d ++ s.a16) v
    return { s.setAcc .w16 q.1 with d := q.2, fV := false }.setNZ .w16 q.1

/-- `ZEA` (R432). -/
def opZea (s : State) : Except Fault State := .ok { s with d := 0 }

/-- `SEA` (R433): the sign bit is the top bit of the accumulator at its width. -/
def opSea (s : State) : Except Fault State := .ok { s with d := if topBit s.wM (s.acc s.wM) then 0xFFFF else 0 }

/-- `TAD` (R434). -/
def opTad (s : State) : Except Fault State := .ok { s with d := s.acc s.wM }

/-- `TDA` (R435). -/
def opTda (s : State) : Except Fault State := .ok ((s.setAcc s.wM s.d).setNZ s.wM s.d)

/-! ## The rows of the opcode table -/

/-- `MUL zp` (R430, R174). -/
def execMulZp (z : Byte) (s : State) : Host.Outcome State Fault Refusal := finish (opMul (.zp z) s)

/-- `MUL zp,X` (R430, R175). -/
def execMulZpX (z : Byte) (s : State) : Host.Outcome State Fault Refusal := finish (opMul (.zpX z) s)

/-- `MUL abs` (R430, R177). -/
def execMulAbs (w : Word) (s : State) : Host.Outcome State Fault Refusal := finish (opMul (.abs w) s)

/-- `MUL abs,X` (R430, R178). -/
def execMulAbsX (w : Word) (s : State) : Host.Outcome State Fault Refusal := finish (opMul (.absX w) s)

/-- `DIV zp` (R431, R174). -/
def execDivZp (z : Byte) (s : State) : Host.Outcome State Fault Refusal := finish (opDiv (.zp z) s)

/-- `DIV zp,X` (R431, R175). -/
def execDivZpX (z : Byte) (s : State) : Host.Outcome State Fault Refusal := finish (opDiv (.zpX z) s)

/-- `DIV abs` (R431, R177). -/
def execDivAbs (w : Word) (s : State) : Host.Outcome State Fault Refusal := finish (opDiv (.abs w) s)

/-- `DIV abs,X` (R431, R178). -/
def execDivAbsX (w : Word) (s : State) : Host.Outcome State Fault Refusal := finish (opDiv (.absX w) s)

/-- `ZEA` (R432). -/
def execZea (s : State) : Host.Outcome State Fault Refusal := finish (opZea s)

/-- `SEA` (R433). -/
def execSea (s : State) : Host.Outcome State Fault Refusal := finish (opSea s)

/-- `TDA` (R435). -/
def execTda (s : State) : Host.Outcome State Fault Refusal := finish (opTda s)

/-- `TAD` (R434). -/
def execTad (s : State) : Host.Outcome State Fault Refusal := finish (opTad s)

end Sys2Proof.Machine
end

