-- ==== Sys2Proof/Machine/ShiftIncDec.lean ====
section
/-! DEFINITION. Shifts, rotates, increments and decrements (42_shift_incdec.md): each operation once, over every operand form, and the meaning of
each row of the opcode table. -/

namespace Sys2Proof.Machine

/-- A shift or rotate (R240 to R243): `shift` gives the result and the bit shifted out, from the operand and fC. -/
def shiftLoc (shift : Width → Word → Bool → Word × Bool) (o : Loc) (s : State) : Except Fault State := do
  let w := s.wM
  let c := s.fC
  let (v, s) ← modifyLoc w o (fun v => (shift w v c).1) s
  return ({ s with fC := (shift w v c).2 }).setNZ w (shift w v c).1

/-- `ASL` (R240). -/
def opAsl (o : Loc) (s : State) : Except Fault State := shiftLoc shiftAsl o s

/-- `LSR` (R241). -/
def opLsr (o : Loc) (s : State) : Except Fault State := shiftLoc shiftLsr o s

/-- `ROL` (R242). -/
def opRol (o : Loc) (s : State) : Except Fault State := shiftLoc shiftRol o s

/-- `ROR` (R243). -/
def opRor (o : Loc) (s : State) : Except Fault State := shiftLoc shiftRor o s

/-- `INC` (R244). -/
def opInc (o : Loc) (s : State) : Except Fault State := do
  let w := s.wM
  let (v, s) ← modifyLoc w o (fun v => cut w (v + 1)) s
  return s.setNZ w (cut w (v + 1))

/-- `DEC` (R245). -/
def opDec (o : Loc) (s : State) : Except Fault State := do
  let w := s.wM
  let (v, s) ← modifyLoc w o (fun v => cut w (v - 1)) s
  return s.setNZ w (cut w (v - 1))

/-- `INX` (R246). -/
def opInx (s : State) : Except Fault State :=
  let w := s.wX
  .ok ((s.setX w (s.x + 1)).setNZ w (s.x + 1))

/-- `INY` (R247). -/
def opIny (s : State) : Except Fault State :=
  let w := s.wX
  .ok ((s.setY w (s.y + 1)).setNZ w (s.y + 1))

/-- `DEX` (R248). -/
def opDex (s : State) : Except Fault State :=
  let w := s.wX
  .ok ((s.setX w (s.x - 1)).setNZ w (s.x - 1))

/-- `DEY` (R249). -/
def opDey (s : State) : Except Fault State :=
  let w := s.wX
  .ok ((s.setY w (s.y - 1)).setNZ w (s.y - 1))

/-! ## The rows of the opcode table -/

/-- `ASL zp` (R240, R174). -/
def execAslZp (z : Byte) (s : State) : Host.Outcome State Fault Refusal := finish (opAsl (.mem (.zp z)) s)

/-- `ASL A` (R240, R172). -/
def execAslAcc (s : State) : Host.Outcome State Fault Refusal := finish (opAsl .acc s)

/-- `ASL abs` (R240, R177). -/
def execAslAbs (w : Word) (s : State) : Host.Outcome State Fault Refusal := finish (opAsl (.mem (.abs w)) s)

/-- `ASL zp,X` (R240, R175). -/
def execAslZpX (z : Byte) (s : State) : Host.Outcome State Fault Refusal := finish (opAsl (.mem (.zpX z)) s)

/-- `INC A` (R244, R172). -/
def execIncAcc (s : State) : Host.Outcome State Fault Refusal := finish (opInc .acc s)

/-- `ASL abs,X` (R240, R178). -/
def execAslAbsX (w : Word) (s : State) : Host.Outcome State Fault Refusal := finish (opAsl (.mem (.absX w)) s)

/-- `ROL zp` (R242, R174). -/
def execRolZp (z : Byte) (s : State) : Host.Outcome State Fault Refusal := finish (opRol (.mem (.zp z)) s)

/-- `ROL A` (R242, R172). -/
def execRolAcc (s : State) : Host.Outcome State Fault Refusal := finish (opRol .acc s)

/-- `ROL abs` (R242, R177). -/
def execRolAbs (w : Word) (s : State) : Host.Outcome State Fault Refusal := finish (opRol (.mem (.abs w)) s)

/-- `ROL zp,X` (R242, R175). -/
def execRolZpX (z : Byte) (s : State) : Host.Outcome State Fault Refusal := finish (opRol (.mem (.zpX z)) s)

/-- `DEC A` (R245, R172). -/
def execDecAcc (s : State) : Host.Outcome State Fault Refusal := finish (opDec .acc s)

/-- `ROL abs,X` (R242, R178). -/
def execRolAbsX (w : Word) (s : State) : Host.Outcome State Fault Refusal := finish (opRol (.mem (.absX w)) s)

/-- `LSR zp` (R241, R174). -/
def execLsrZp (z : Byte) (s : State) : Host.Outcome State Fault Refusal := finish (opLsr (.mem (.zp z)) s)

/-- `LSR A` (R241, R172). -/
def execLsrAcc (s : State) : Host.Outcome State Fault Refusal := finish (opLsr .acc s)

/-- `LSR abs` (R241, R177). -/
def execLsrAbs (w : Word) (s : State) : Host.Outcome State Fault Refusal := finish (opLsr (.mem (.abs w)) s)

/-- `LSR zp,X` (R241, R175). -/
def execLsrZpX (z : Byte) (s : State) : Host.Outcome State Fault Refusal := finish (opLsr (.mem (.zpX z)) s)

/-- `LSR abs,X` (R241, R178). -/
def execLsrAbsX (w : Word) (s : State) : Host.Outcome State Fault Refusal := finish (opLsr (.mem (.absX w)) s)

/-- `ROR zp` (R243, R174). -/
def execRorZp (z : Byte) (s : State) : Host.Outcome State Fault Refusal := finish (opRor (.mem (.zp z)) s)

/-- `ROR A` (R243, R172). -/
def execRorAcc (s : State) : Host.Outcome State Fault Refusal := finish (opRor .acc s)

/-- `ROR abs` (R243, R177). -/
def execRorAbs (w : Word) (s : State) : Host.Outcome State Fault Refusal := finish (opRor (.mem (.abs w)) s)

/-- `ROR zp,X` (R243, R175). -/
def execRorZpX (z : Byte) (s : State) : Host.Outcome State Fault Refusal := finish (opRor (.mem (.zpX z)) s)

/-- `ROR abs,X` (R243, R178). -/
def execRorAbsX (w : Word) (s : State) : Host.Outcome State Fault Refusal := finish (opRor (.mem (.absX w)) s)

/-- `DEY` (R249). -/
def execDey (s : State) : Host.Outcome State Fault Refusal := finish (opDey s)

/-- `DEC zp` (R245, R174). -/
def execDecZp (z : Byte) (s : State) : Host.Outcome State Fault Refusal := finish (opDec (.mem (.zp z)) s)

/-- `INY` (R247). -/
def execIny (s : State) : Host.Outcome State Fault Refusal := finish (opIny s)

/-- `DEX` (R248). -/
def execDex (s : State) : Host.Outcome State Fault Refusal := finish (opDex s)

/-- `DEC abs` (R245, R177). -/
def execDecAbs (w : Word) (s : State) : Host.Outcome State Fault Refusal := finish (opDec (.mem (.abs w)) s)

/-- `DEC zp,X` (R245, R175). -/
def execDecZpX (z : Byte) (s : State) : Host.Outcome State Fault Refusal := finish (opDec (.mem (.zpX z)) s)

/-- `DEC abs,X` (R245, R178). -/
def execDecAbsX (w : Word) (s : State) : Host.Outcome State Fault Refusal := finish (opDec (.mem (.absX w)) s)

/-- `INC zp` (R244, R174). -/
def execIncZp (z : Byte) (s : State) : Host.Outcome State Fault Refusal := finish (opInc (.mem (.zp z)) s)

/-- `INX` (R246). -/
def execInx (s : State) : Host.Outcome State Fault Refusal := finish (opInx s)

/-- `INC abs` (R244, R177). -/
def execIncAbs (w : Word) (s : State) : Host.Outcome State Fault Refusal := finish (opInc (.mem (.abs w)) s)

/-- `INC zp,X` (R244, R175). -/
def execIncZpX (z : Byte) (s : State) : Host.Outcome State Fault Refusal := finish (opInc (.mem (.zpX z)) s)

/-- `INC abs,X` (R244, R178). -/
def execIncAbsX (w : Word) (s : State) : Host.Outcome State Fault Refusal := finish (opInc (.mem (.absX w)) s)

end Sys2Proof.Machine
end

