-- ==== Sys2Proof/Machine/Stack.lean ====
section
/-! DEFINITION. Push and pull on the data stack (45_stack.md): each operation once, over every operand form, and the meaning of
each row of the opcode table. -/

namespace Sys2Proof.Machine

/-- `PHA` (R351). -/
def opPha (s : State) : Except Fault State := pushW s.wM (s.acc s.wM) s

/-- `PLA` (R352). -/
def opPla (s : State) : Except Fault State := do
  let w := s.wM
  let (v, s) ← popW w s
  return (s.setAcc w v).setNZ w v

/-- `PHX` (R353). -/
def opPhx (s : State) : Except Fault State := pushW s.wX (cut s.wX s.x) s

/-- `PLX` (R354). -/
def opPlx (s : State) : Except Fault State := do
  let w := s.wX
  let (v, s) ← popW w s
  return (s.setX w v).setNZ w v

/-- `PHY` (R355). -/
def opPhy (s : State) : Except Fault State := pushW s.wX (cut s.wX s.y) s

/-- `PLY` (R356). -/
def opPly (s : State) : Except Fault State := do
  let w := s.wX
  let (v, s) ← popW w s
  return (s.setY w v).setNZ w v

/-- `PHP` (R357): 8 bits in every mode. -/
def opPhp (s : State) : Except Fault State := push8 s.getP s

/-- `PLP` (R358). -/
def opPlp (s : State) : Except Fault State := do
  let (p, s) ← pop8 s
  return s.setP p

/-- `PHD` (R359). -/
def opPhd (s : State) : Except Fault State := pushW s.wM (cut s.wM s.d) s

/-- `PLD` (R360): at width 8 the high byte of D becomes 0. -/
def opPld (s : State) : Except Fault State := do
  let w := s.wM
  let (v, s) ← popW w s
  return { s with d := v }.setNZ w v

/-- `PEA` (R361). -/
def opPea (w : Word) (s : State) : Except Fault State := push16 w s

/-- `PEI` (R362). -/
def opPei (z : Byte) (s : State) : Except Fault State := do
  let (p, s) ← zpPtr z s
  push16 p s

/-- `PER` (R363). -/
def opPer (w : Word) (s : State) : Except Fault State := push16 (relValue w s) s

/-! ## The rows of the opcode table -/

/-- `PHP` (R357). -/
def execPhp (s : State) : Host.Outcome State Fault Refusal := finish (opPhp s)

/-- `PLP` (R358). -/
def execPlp (s : State) : Host.Outcome State Fault Refusal := finish (opPlp s)

/-- `PHA` (R351). -/
def execPha (s : State) : Host.Outcome State Fault Refusal := finish (opPha s)

/-- `PHY` (R355). -/
def execPhy (s : State) : Host.Outcome State Fault Refusal := finish (opPhy s)

/-- `PER rel16` (R363, R186). -/
def execPer (w : Word) (s : State) : Host.Outcome State Fault Refusal := finish (opPer w s)

/-- `PLA` (R352). -/
def execPla (s : State) : Host.Outcome State Fault Refusal := finish (opPla s)

/-- `PLY` (R356). -/
def execPly (s : State) : Host.Outcome State Fault Refusal := finish (opPly s)

/-- `PLD` (R360). -/
def execPld (s : State) : Host.Outcome State Fault Refusal := finish (opPld s)

/-- `PEI (zp)` (R362, R182). -/
def execPei (z : Byte) (s : State) : Host.Outcome State Fault Refusal := finish (opPei z s)

/-- `PHX` (R353). -/
def execPhx (s : State) : Host.Outcome State Fault Refusal := finish (opPhx s)

/-- `PHD` (R359). -/
def execPhd (s : State) : Host.Outcome State Fault Refusal := finish (opPhd s)

/-- `PEA abs` (R361, R177). -/
def execPea (w : Word) (s : State) : Host.Outcome State Fault Refusal := finish (opPea w s)

/-- `PLX` (R354). -/
def execPlx (s : State) : Host.Outcome State Fault Refusal := finish (opPlx s)

end Sys2Proof.Machine
end

