-- ==== Sys2Proof/Machine/System.lean ====
section
/-! DEFINITION. STP, WAI, the MMU opcode and the illegal opcode (49_system.md): each operation once, over every operand form, and the meaning of
each row of the opcode table. -/

namespace Sys2Proof.Machine

/-- `STP` (R450): the step that executes it completes; the machine then takes no further step. -/
def opStp (s : State) : Except Fault State := .ok { s with halted := true }

/-- `WAI` (R451). -/
def opWai (s : State) : Except Fault State := .ok { s with waiting := true }

/-- The log sub-operation (R453): the callback, if one is installed, receives `Acc(wM)`. -/
def logAcc (s : State) : State := if s.logInstalled then s.tell (.log s.wM (s.acc s.wM)) else s

/-- `MmuOp(k)` (R453). A selector outside the table has no effect. No flag is written. -/
def mmuOp (k : Byte) (s : State) : State :=
  let value := s.acc s.wM
  match k.toNat with
  | 0x00 => { s with rbSlot := s.al }
  | 0x01 => { s with rbWindow := value }
  | 0x02 => { s with rbEnabled := true }
  | 0x03 => { s with rbAuxWin := value }
  | 0x04 => { s with rbAuxEn := true }
  | 0x05 => { s with brkv := value }
  | 0x06 => { s with por := value }
  | 0x80 => s.setAcc s.wM (zext s.rbSlot)
  | 0x81 => s.setAcc s.wM s.rbWindow
  | 0x82 => { s with rbEnabled := false }
  | 0x83 => s.setAcc s.wM s.rbAuxWin
  | 0x84 => { s with rbAuxEn := false }
  | 0x85 => s.setAcc s.wM s.brkv
  | 0x86 => s.setAcc s.wM s.por
  | 0xFF => logAcc s
  | _ => s

/-- `MMU` (R452). -/
def opMmu (k : Byte) (s : State) : Except Fault State := .ok (mmuOp k s)

/-- The illegal opcode (R454). -/
def opIllegal (s : State) : Except Fault State := .ok (raiseIllegalOpcode s)

/-! ## The rows of the opcode table -/

/-- `WAI` (R451). -/
def execWai (s : State) : Host.Outcome State Fault Refusal := finish (opWai s)

/-- `STP` (R450). -/
def execStp (s : State) : Host.Outcome State Fault Refusal := finish (opStp s)

/-- `MMU #imm8` (R452, R173). -/
def execMmu (k : Byte) (s : State) : Host.Outcome State Fault Refusal := finish (opMmu k s)

/-- `The illegal opcode` (R454). -/
def execIllegal (s : State) : Host.Outcome State Fault Refusal := finish (opIllegal s)

end Sys2Proof.Machine
end

