-- ==== Sys2Proof/Machine/Dispatch.lean ====
section
/-! DEFINITION. The meaning of every instruction: one arm a constructor. -/

namespace Sys2Proof.Machine

/-- What an instruction does, in the state after its fetch (30_encoding.md R140). -/
def exec (i : Instr) (s : State) : Host.Outcome State Fault Refusal :=
  match i with
  | .brk => Sys2Proof.Machine.execBrk s
  | .oraIzpX z => Sys2Proof.Machine.execOraIzpX z s
  | .nxt => Sys2Proof.Machine.execNxt s
  | .oraSr o => Sys2Proof.Machine.execOraSr o s
  | .tsbZp z => Sys2Proof.Machine.execTsbZp z s
  | .oraZp z => Sys2Proof.Machine.execOraZp z s
  | .aslZp z => Sys2Proof.Machine.execAslZp z s
  | .oraRr o => Sys2Proof.Machine.execOraRr o s
  | .php => Sys2Proof.Machine.execPhp s
  | .oraImmM v => Sys2Proof.Machine.execOraImmM v s
  | .aslAcc => Sys2Proof.Machine.execAslAcc s
  | .rhi => Sys2Proof.Machine.execRhi s
  | .tsbAbs w => Sys2Proof.Machine.execTsbAbs w s
  | .oraAbs w => Sys2Proof.Machine.execOraAbs w s
  | .aslAbs w => Sys2Proof.Machine.execAslAbs w s
  | .mulZp z => Sys2Proof.Machine.execMulZp z s
  | .bpl b => Sys2Proof.Machine.execBpl b s
  | .oraIzpY z => Sys2Proof.Machine.execOraIzpY z s
  | .oraIzp z => Sys2Proof.Machine.execOraIzp z s
  | .oraIsrY o => Sys2Proof.Machine.execOraIsrY o s
  | .trbZp z => Sys2Proof.Machine.execTrbZp z s
  | .oraZpX z => Sys2Proof.Machine.execOraZpX z s
  | .aslZpX z => Sys2Proof.Machine.execAslZpX z s
  | .oraIrrY o => Sys2Proof.Machine.execOraIrrY o s
  | .clc => Sys2Proof.Machine.execClc s
  | .oraAbsY w => Sys2Proof.Machine.execOraAbsY w s
  | .incAcc => Sys2Proof.Machine.execIncAcc s
  | .rhx => Sys2Proof.Machine.execRhx s
  | .trbAbs w => Sys2Proof.Machine.execTrbAbs w s
  | .oraAbsX w => Sys2Proof.Machine.execOraAbsX w s
  | .aslAbsX w => Sys2Proof.Machine.execAslAbsX w s
  | .mulZpX z => Sys2Proof.Machine.execMulZpX z s
  | .jsrAbs w => Sys2Proof.Machine.execJsrAbs w s
  | .andIzpX z => Sys2Proof.Machine.execAndIzpX z s
  | .ent w => Sys2Proof.Machine.execEnt w s
  | .andSr o => Sys2Proof.Machine.execAndSr o s
  | .bitZp z => Sys2Proof.Machine.execBitZp z s
  | .andZp z => Sys2Proof.Machine.execAndZp z s
  | .rolZp z => Sys2Proof.Machine.execRolZp z s
  | .andRr o => Sys2Proof.Machine.execAndRr o s
  | .plp => Sys2Proof.Machine.execPlp s
  | .andImmM v => Sys2Proof.Machine.execAndImmM v s
  | .rolAcc => Sys2Proof.Machine.execRolAcc s
  | .rli => Sys2Proof.Machine.execRli s
  | .bitAbs w => Sys2Proof.Machine.execBitAbs w s
  | .andAbs w => Sys2Proof.Machine.execAndAbs w s
  | .rolAbs w => Sys2Proof.Machine.execRolAbs w s
  | .mulAbs w => Sys2Proof.Machine.execMulAbs w s
  | .bmi b => Sys2Proof.Machine.execBmi b s
  | .andIzpY z => Sys2Proof.Machine.execAndIzpY z s
  | .andIzp z => Sys2Proof.Machine.execAndIzp z s
  | .andIsrY o => Sys2Proof.Machine.execAndIsrY o s
  | .bitZpX z => Sys2Proof.Machine.execBitZpX z s
  | .andZpX z => Sys2Proof.Machine.execAndZpX z s
  | .rolZpX z => Sys2Proof.Machine.execRolZpX z s
  | .andIrrY o => Sys2Proof.Machine.execAndIrrY o s
  | .sec => Sys2Proof.Machine.execSec s
  | .andAbsY w => Sys2Proof.Machine.execAndAbsY w s
  | .decAcc => Sys2Proof.Machine.execDecAcc s
  | .rlx => Sys2Proof.Machine.execRlx s
  | .bitAbsX w => Sys2Proof.Machine.execBitAbsX w s
  | .andAbsX w => Sys2Proof.Machine.execAndAbsX w s
  | .rolAbsX w => Sys2Proof.Machine.execRolAbsX w s
  | .mulAbsX w => Sys2Proof.Machine.execMulAbsX w s
  | .rti => Sys2Proof.Machine.execRti s
  | .eorIzpX z => Sys2Proof.Machine.execEorIzpX z s
  | .nxa => Sys2Proof.Machine.execNxa s
  | .eorSr o => Sys2Proof.Machine.execEorSr o s
  | .rea w => Sys2Proof.Machine.execRea w s
  | .eorZp z => Sys2Proof.Machine.execEorZp z s
  | .lsrZp z => Sys2Proof.Machine.execLsrZp z s
  | .eorRr o => Sys2Proof.Machine.execEorRr o s
  | .pha => Sys2Proof.Machine.execPha s
  | .eorImmM v => Sys2Proof.Machine.execEorImmM v s
  | .lsrAcc => Sys2Proof.Machine.execLsrAcc s
  | .rha => Sys2Proof.Machine.execRha s
  | .jmpAbs w => Sys2Proof.Machine.execJmpAbs w s
  | .eorAbs w => Sys2Proof.Machine.execEorAbs w s
  | .lsrAbs w => Sys2Proof.Machine.execLsrAbs w s
  | .divZp z => Sys2Proof.Machine.execDivZp z s
  | .bvc b => Sys2Proof.Machine.execBvc b s
  | .eorIzpY z => Sys2Proof.Machine.execEorIzpY z s
  | .eorIzp z => Sys2Proof.Machine.execEorIzp z s
  | .eorIsrY o => Sys2Proof.Machine.execEorIsrY o s
  | .rei z => Sys2Proof.Machine.execRei z s
  | .eorZpX z => Sys2Proof.Machine.execEorZpX z s
  | .lsrZpX z => Sys2Proof.Machine.execLsrZpX z s
  | .eorIrrY o => Sys2Proof.Machine.execEorIrrY o s
  | .cli => Sys2Proof.Machine.execCli s
  | .eorAbsY w => Sys2Proof.Machine.execEorAbsY w s
  | .phy => Sys2Proof.Machine.execPhy s
  | .rhy => Sys2Proof.Machine.execRhy s
  | .txi => Sys2Proof.Machine.execTxi s
  | .eorAbsX w => Sys2Proof.Machine.execEorAbsX w s
  | .lsrAbsX w => Sys2Proof.Machine.execLsrAbsX w s
  | .divZpX z => Sys2Proof.Machine.execDivZpX z s
  | .rts => Sys2Proof.Machine.execRts s
  | .adcIzpX z => Sys2Proof.Machine.execAdcIzpX z s
  | .per w => Sys2Proof.Machine.execPer w s
  | .adcSr o => Sys2Proof.Machine.execAdcSr o s
  | .stzZp z => Sys2Proof.Machine.execStzZp z s
  | .adcZp z => Sys2Proof.Machine.execAdcZp z s
  | .rorZp z => Sys2Proof.Machine.execRorZp z s
  | .adcRr o => Sys2Proof.Machine.execAdcRr o s
  | .pla => Sys2Proof.Machine.execPla s
  | .adcImmM v => Sys2Proof.Machine.execAdcImmM v s
  | .rorAcc => Sys2Proof.Machine.execRorAcc s
  | .rla => Sys2Proof.Machine.execRla s
  | .jmpIabs w => Sys2Proof.Machine.execJmpIabs w s
  | .adcAbs w => Sys2Proof.Machine.execAdcAbs w s
  | .rorAbs w => Sys2Proof.Machine.execRorAbs w s
  | .divAbs w => Sys2Proof.Machine.execDivAbs w s
  | .bvs b => Sys2Proof.Machine.execBvs b s
  | .adcIzpY z => Sys2Proof.Machine.execAdcIzpY z s
  | .adcIzp z => Sys2Proof.Machine.execAdcIzp z s
  | .adcIsrY o => Sys2Proof.Machine.execAdcIsrY o s
  | .stzZpX z => Sys2Proof.Machine.execStzZpX z s
  | .adcZpX z => Sys2Proof.Machine.execAdcZpX z s
  | .rorZpX z => Sys2Proof.Machine.execRorZpX z s
  | .adcIrrY o => Sys2Proof.Machine.execAdcIrrY o s
  | .sei => Sys2Proof.Machine.execSei s
  | .adcAbsY w => Sys2Proof.Machine.execAdcAbsY w s
  | .ply => Sys2Proof.Machine.execPly s
  | .rly => Sys2Proof.Machine.execRly s
  | .jmpIabsX w => Sys2Proof.Machine.execJmpIabsX w s
  | .adcAbsX w => Sys2Proof.Machine.execAdcAbsX w s
  | .rorAbsX w => Sys2Proof.Machine.execRorAbsX w s
  | .divAbsX w => Sys2Proof.Machine.execDivAbsX w s
  | .bra b => Sys2Proof.Machine.execBra b s
  | .staIzpX z => Sys2Proof.Machine.execStaIzpX z s
  | .rer w => Sys2Proof.Machine.execRer w s
  | .staSr o => Sys2Proof.Machine.execStaSr o s
  | .styZp z => Sys2Proof.Machine.execStyZp z s
  | .staZp z => Sys2Proof.Machine.execStaZp z s
  | .stxZp z => Sys2Proof.Machine.execStxZp z s
  | .staRr o => Sys2Proof.Machine.execStaRr o s
  | .dey => Sys2Proof.Machine.execDey s
  | .bitImmM v => Sys2Proof.Machine.execBitImmM v s
  | .txa => Sys2Proof.Machine.execTxa s
  | .txr => Sys2Proof.Machine.execTxr s
  | .styAbs w => Sys2Proof.Machine.execStyAbs w s
  | .staAbs w => Sys2Proof.Machine.execStaAbs w s
  | .stxAbs w => Sys2Proof.Machine.execStxAbs w s
  | .zea => Sys2Proof.Machine.execZea s
  | .bcc b => Sys2Proof.Machine.execBcc b s
  | .staIzpY z => Sys2Proof.Machine.execStaIzpY z s
  | .staIzp z => Sys2Proof.Machine.execStaIzp z s
  | .staIsrY o => Sys2Proof.Machine.execStaIsrY o s
  | .styZpX z => Sys2Proof.Machine.execStyZpX z s
  | .staZpX z => Sys2Proof.Machine.execStaZpX z s
  | .stxZpY z => Sys2Proof.Machine.execStxZpY z s
  | .staIrrY o => Sys2Proof.Machine.execStaIrrY o s
  | .tya => Sys2Proof.Machine.execTya s
  | .staAbsY w => Sys2Proof.Machine.execStaAbsY w s
  | .txs => Sys2Proof.Machine.execTxs s
  | .txy => Sys2Proof.Machine.execTxy s
  | .stzAbs w => Sys2Proof.Machine.execStzAbs w s
  | .staAbsX w => Sys2Proof.Machine.execStaAbsX w s
  | .stzAbsX w => Sys2Proof.Machine.execStzAbsX w s
  | .sea => Sys2Proof.Machine.execSea s
  | .ldyImmX v => Sys2Proof.Machine.execLdyImmX v s
  | .ldaIzpX z => Sys2Proof.Machine.execLdaIzpX z s
  | .ldxImmX v => Sys2Proof.Machine.execLdxImmX v s
  | .ldaSr o => Sys2Proof.Machine.execLdaSr o s
  | .ldyZp z => Sys2Proof.Machine.execLdyZp z s
  | .ldaZp z => Sys2Proof.Machine.execLdaZp z s
  | .ldxZp z => Sys2Proof.Machine.execLdxZp z s
  | .ldaRr o => Sys2Proof.Machine.execLdaRr o s
  | .tay => Sys2Proof.Machine.execTay s
  | .ldaImmM v => Sys2Proof.Machine.execLdaImmM v s
  | .tax => Sys2Proof.Machine.execTax s
  | .trx => Sys2Proof.Machine.execTrx s
  | .ldyAbs w => Sys2Proof.Machine.execLdyAbs w s
  | .ldaAbs w => Sys2Proof.Machine.execLdaAbs w s
  | .ldxAbs w => Sys2Proof.Machine.execLdxAbs w s
  | .tda => Sys2Proof.Machine.execTda s
  | .bcs b => Sys2Proof.Machine.execBcs b s
  | .ldaIzpY z => Sys2Proof.Machine.execLdaIzpY z s
  | .ldaIzp z => Sys2Proof.Machine.execLdaIzp z s
  | .ldaIsrY o => Sys2Proof.Machine.execLdaIsrY o s
  | .ldyZpX z => Sys2Proof.Machine.execLdyZpX z s
  | .ldaZpX z => Sys2Proof.Machine.execLdaZpX z s
  | .ldxZpY z => Sys2Proof.Machine.execLdxZpY z s
  | .ldaIrrY o => Sys2Proof.Machine.execLdaIrrY o s
  | .clv => Sys2Proof.Machine.execClv s
  | .ldaAbsY w => Sys2Proof.Machine.execLdaAbsY w s
  | .tsx => Sys2Proof.Machine.execTsx s
  | .tyx => Sys2Proof.Machine.execTyx s
  | .ldyAbsX w => Sys2Proof.Machine.execLdyAbsX w s
  | .ldaAbsX w => Sys2Proof.Machine.execLdaAbsX w s
  | .ldxAbsY w => Sys2Proof.Machine.execLdxAbsY w s
  | .tad => Sys2Proof.Machine.execTad s
  | .cpyImmX v => Sys2Proof.Machine.execCpyImmX v s
  | .cmpIzpX z => Sys2Proof.Machine.execCmpIzpX z s
  | .rep k => Sys2Proof.Machine.execRep k s
  | .cmpSr o => Sys2Proof.Machine.execCmpSr o s
  | .cpyZp z => Sys2Proof.Machine.execCpyZp z s
  | .cmpZp z => Sys2Proof.Machine.execCmpZp z s
  | .decZp z => Sys2Proof.Machine.execDecZp z s
  | .cmpRr o => Sys2Proof.Machine.execCmpRr o s
  | .iny => Sys2Proof.Machine.execIny s
  | .cmpImmM v => Sys2Proof.Machine.execCmpImmM v s
  | .dex => Sys2Proof.Machine.execDex s
  | .wai => Sys2Proof.Machine.execWai s
  | .cpyAbs w => Sys2Proof.Machine.execCpyAbs w s
  | .cmpAbs w => Sys2Proof.Machine.execCmpAbs w s
  | .decAbs w => Sys2Proof.Machine.execDecAbs w s
  | .pld => Sys2Proof.Machine.execPld s
  | .bne b => Sys2Proof.Machine.execBne b s
  | .cmpIzpY z => Sys2Proof.Machine.execCmpIzpY z s
  | .cmpIzp z => Sys2Proof.Machine.execCmpIzp z s
  | .cmpIsrY o => Sys2Proof.Machine.execCmpIsrY o s
  | .pei z => Sys2Proof.Machine.execPei z s
  | .cmpZpX z => Sys2Proof.Machine.execCmpZpX z s
  | .decZpX z => Sys2Proof.Machine.execDecZpX z s
  | .cmpIrrY o => Sys2Proof.Machine.execCmpIrrY o s
  | .cld => Sys2Proof.Machine.execCld s
  | .cmpAbsY w => Sys2Proof.Machine.execCmpAbsY w s
  | .phx => Sys2Proof.Machine.execPhx s
  | .stp => Sys2Proof.Machine.execStp s
  | .tix => Sys2Proof.Machine.execTix s
  | .cmpAbsX w => Sys2Proof.Machine.execCmpAbsX w s
  | .decAbsX w => Sys2Proof.Machine.execDecAbsX w s
  | .phd => Sys2Proof.Machine.execPhd s
  | .cpxImmX v => Sys2Proof.Machine.execCpxImmX v s
  | .sbcIzpX z => Sys2Proof.Machine.execSbcIzpX z s
  | .sep k => Sys2Proof.Machine.execSep k s
  | .sbcSr o => Sys2Proof.Machine.execSbcSr o s
  | .cpxZp z => Sys2Proof.Machine.execCpxZp z s
  | .sbcZp z => Sys2Proof.Machine.execSbcZp z s
  | .incZp z => Sys2Proof.Machine.execIncZp z s
  | .sbcRr o => Sys2Proof.Machine.execSbcRr o s
  | .inx => Sys2Proof.Machine.execInx s
  | .sbcImmM v => Sys2Proof.Machine.execSbcImmM v s
  | .nop => Sys2Proof.Machine.execNop s
  | .xba => Sys2Proof.Machine.execXba s
  | .cpxAbs w => Sys2Proof.Machine.execCpxAbs w s
  | .sbcAbs w => Sys2Proof.Machine.execSbcAbs w s
  | .incAbs w => Sys2Proof.Machine.execIncAbs w s
  | .mmu k => Sys2Proof.Machine.execMmu k s
  | .beq b => Sys2Proof.Machine.execBeq b s
  | .sbcIzpY z => Sys2Proof.Machine.execSbcIzpY z s
  | .sbcIzp z => Sys2Proof.Machine.execSbcIzp z s
  | .sbcIsrY o => Sys2Proof.Machine.execSbcIsrY o s
  | .pea w => Sys2Proof.Machine.execPea w s
  | .sbcZpX z => Sys2Proof.Machine.execSbcZpX z s
  | .incZpX z => Sys2Proof.Machine.execIncZpX z s
  | .sbcIrrY o => Sys2Proof.Machine.execSbcIrrY o s
  | .sed => Sys2Proof.Machine.execSed s
  | .sbcAbsY w => Sys2Proof.Machine.execSbcAbsY w s
  | .plx => Sys2Proof.Machine.execPlx s
  | .xce => Sys2Proof.Machine.execXce s
  | .jsrIabsX w => Sys2Proof.Machine.execJsrIabsX w s
  | .sbcAbsX w => Sys2Proof.Machine.execSbcAbsX w s
  | .incAbsX w => Sys2Proof.Machine.execIncAbsX w s
  | .illegal => Sys2Proof.Machine.execIllegal s

end Sys2Proof.Machine
end

