-- ==== Sys2Proof/Machine/Cycle.lean ====
section
/-! DEFINITION. The interrupt arbiter, the fetch, the core step, the RedBus tick and the machine step (30_encoding.md
R140, 60_exceptions.md R484 to R494, 20_memory.md R94). -/

namespace Sys2Proof.Machine

/-- `IntEntry(vec)` of NMI and IRQ (R487): the return address is that of the instruction not yet executed. -/
def interruptEntry (vector : State → Word) (s : State) : Except Fault State := takeInterrupt false s.pc (vector s) s

/-- `InterruptCheck()` (R484): NMI before IRQ, at most one entry, and the pending bit is cleared before it. -/
def interruptCheck (s : State) : Except Fault State :=
  if s.nmi then interruptEntry nmiVector { s with nmi := false }
  else if s.irq && !s.waiting && !s.fI then interruptEntry irqVector { s with irq := false }
  else .ok s

/-- The fetch of one byte: a bus read at `PC`, which advances (R140, 10_state.md R35). -/
def fetchByte (s : State) : Except Fault (Byte × State) := do
  let (b, t) ← busRead s.pc s
  return (b, { t with pc := s.pc + 1 })

/-- The fetch of an instruction (R140): the opcode byte and as many more as its length at the present widths says. An opcode
in `P_ILLEGAL_OPCODES` is the illegal instruction (R480). -/
def fetch (s : State) : Except Fault (Instr × State) := do
  let wM := s.wM
  let wX := s.wX
  let (b0, s) ← fetchByte s
  let op := romOpcode s.params.illegalOpcodes b0
  match opcodeLength wM wX op with
  | 2 => do
    let (b1, s) ← fetchByte s
    return (instrOf wM wX op b1 0, s)
  | 3 => do
    let (b1, s) ← fetchByte s
    let (b2, s) ← fetchByte s
    return (instrOf wM wX op b1 b2, s)
  | _ => return (instrOf wM wX op 0 0, s)

/-- The start of a core step (R140): the trap flag is cleared, an interrupt may be entered, an instruction is fetched. -/
def beginStep (s : State) : Except Fault (Instr × State) := do
  let s ← interruptCheck { s with trap := false }
  fetch s

/-- The count of completed core steps goes up by one (R498). -/
def State.countStep (s : State) : State := { s with steps := s.steps + 1 }

/-- `RedBusTick()` (20_memory.md R94): the peripheral in the active slot is updated, whatever `rb_enabled` is, and may call
`signal()` as often as it likes (R504). -/
def redBusTick (s : State) : State :=
  match s.activePeripheral with
  | none => s
  | some p =>
    let s := s.tell (.peripheralTick p)
    { s with tokens := min (s.tokens + Config.tickSignals s.events) Config.wakeTokenCap }

/-- `WakeRelease()` (R492). -/
def wakeRelease (s : State) : State := { s with tokens := s.tokens - 1, waiting := false, irq := true }

/-- What the machine step does after the core step (R490): the tick, then the end of the run loop if the core is halted,
or the release of the wait if there is a token. A wait without a token leaves the machine blocked. -/
def endStep (s : State) : State :=
  let s := redBusTick s
  if s.halted then { s with running := false }
  else if s.waiting && decide (0 < s.tokens) then wakeRelease s
  else s

/-- `Step()` (R140) and what follows it in `MachineStep()` (R490). -/
def coreStep (s : State) : Host.Outcome State Fault Refusal :=
  match beginStep s with
  | .error f => .fault f
  | .ok (i, t) =>
    match exec i t with
    | .next u => .next (endStep u.countStep)
    | .fault f => .fault f
    | .refused r => .refused r

/-- Whether no two devices have one start address (20_memory.md R83). -/
def distinctStarts : List Device → Bool
  | [] => true
  | dv :: t => t.all (fun e => e.start != dv.start) && distinctStarts t

/-- `MachineStep()` (R490). The states in which no step is enabled are named faults (log entry 11); a device map that is
outside the spec is refused (R83). -/
def machineStep (s : State) : Host.Outcome State Fault Refusal :=
  if !distinctStarts s.devices then .refused .ambiguousDeviceMap
  else if s.halted then .fault .halted
  else if !s.running then .fault .notRunning
  else if s.waiting then
    if s.tokens = 0 then .fault .waitBlocked else coreStep (wakeRelease s)
  else coreStep s

end Sys2Proof.Machine
end

