-- ==== Sys2Proof/Machine/HostMoves.lean ====
section
/-! DEFINITION. Construction, reset, and the moves the host may make between machine steps (70_reset_and_hazards.md R530
to R533, 60_exceptions.md R486, R491, R493, R504). None of them is part of `step`. -/

namespace Sys2Proof.Machine

/-- What a platform supplies at construction: the parameters of 00_scope.md R8, the launch content of RAM (20_memory.md R86),
the bindings installed, and whether there is a log callback. -/
structure Platform where
  params : Params
  redBusInit : RedBusInit
  porInit : Word
  brkInit : Word
  wakeTokensInit : Nat
  devices : List Device
  ram : List Host.Cell
  bindings : Vector (Option Peripheral) 256
  logInstalled : Bool
deriving DecidableEq, Repr

/-- Construction (R533). The registers and signals that have no value before the first reset stand at State.reset's, and no
step can read them: the run loop is not running, and `run()` is refused until a reset (93_implementation_defined.md S1).
DESIGN CHOICE, safe: log entry 34. -/
def Platform.construct (p : Platform) : State :=
  { State.reset with
    por := p.porInit, brkv := p.brkInit, tokens := p.wakeTokensInit, devices := p.devices, mem := p.ram,
    rbEnabled := p.redBusInit.enabled, rbSlot := p.redBusInit.slot, rbWindow := p.redBusInit.window,
    rbAuxWin := p.redBusInit.auxwin, rbAuxEn := p.redBusInit.auxen, rbBind := p.bindings,
    logInstalled := p.logInstalled, running := false, wasReset := false, params := p.params, events := [] }

/-- `Reset()` (R530); R531 names what it leaves unchanged. From here on the machine has been reset (R533). -/
def State.resetCore (s : State) : State :=
  { s with
    al := 0x00, ah := 0x00, x := 0x0000, y := 0x0000, i := 0x0000, d := 0x0000, sp := 0xFF, r := 0xFF,
    fC := false, fZ := false, fD := false, fV := false, fN := false, fB := false, fI := true,
    fE := true, fM := true, fX := true, pc := s.por,
    trap := false, irq := false, nmi := false, waiting := false, halted := false, steps := 0,
    wasReset := true }

/-- `signal()` (R491): the tokens saturate at `P_WAKE_TOKEN_CAP`. -/
def State.signal (s : State) : State := { s with tokens := min (s.tokens + 1) Config.wakeTokenCap }

/-- `stop()` (R493): the run loop ends and the tokens are full; no core register changes. -/
def State.stop (s : State) : State := { s with running := false, tokens := Config.wakeTokenCap }

/-- `run()` (R504): machine steps are enabled. -/
def State.run (s : State) : State := { s with running := true }

/-- The machine a platform launches: construction, reset, `run()` (R533). -/
def Platform.launch (p : Platform) : State := p.construct.resetCore.run

/-- The moves of the host that act on the machine (R504). -/
inductive HostMove where
  /-- Assert IRQ (R486). -/
  | assertIrq
  /-- Assert NMI (R486). -/
  | assertNmi
  | signal
  | stop
  | reset
  | run
  /-- Install a peripheral in a slot (R504). -/
  | install (slot : Byte) (peripheral : Peripheral)
deriving DecidableEq, Repr

/-- The state after a host move, between machine steps; none where R504 assumes that the host never makes it (reset, run
and install while the run loop runs), and where R533 requires a reset first (run before the first reset). `run()` on a halted
core sets the run loop running although no step is enabled, and reset then waits for `stop()`: DESIGN CHOICE, log entry 31. -/
def hostMove (m : HostMove) (s : State) : Option State :=
  match m with
  | .assertIrq => some { s with irq := true }
  | .assertNmi => some { s with nmi := true }
  | .signal => some s.signal
  | .stop => some s.stop
  | .reset => if s.running then none else some s.resetCore
  | .run => if s.running || !s.wasReset then none else some s.run
  | .install slot p => if s.running then none else some { s with rbBind := s.rbBind.set slot.toNat (some p) slot.isLt }

end Sys2Proof.Machine
end

