-- ==== Sys2Proof/Machine/Step.lean ====
section
/-! DEFINITION. The step of the machine, and how an instruction is placed where the next step fetches it. -/

namespace Sys2Proof.Machine

/-- One machine step (60_exceptions.md R490). -/
def step (s : State) : Host.Outcome State Fault Refusal := machineStep s

/-- The state with the bytes of `w`, the first in bits 7..0 and zero from bit `nbits` on, stored in RAM from `PC` on, where
the next step fetches. -/
def State.withFetchWord (s : State) (nbits w : Nat) : State :=
  let n := w % 2 ^ nbits
  let m := Memory.write s.mem s.pc.toNat (BitVec.ofNat 8 n)
  let m := Memory.write m (s.pc + 1).toNat (BitVec.ofNat 8 (n / 256))
  { s with mem := Memory.write m (s.pc + 2).toNat (BitVec.ofNat 8 (n / 65536)) }

end Sys2Proof.Machine
end

