-- ==== Sys2Proof/Safety.lean ====
section
/-! DEFINITION. What counts as a legal state and a safe run, in the terms the statements use. -/

namespace Sys2Proof

/-- The 22 addressing modes, without their operand bytes (40_addressing.md R170). -/
inductive Mode where
  | implied | acc | immM | immX | imm8
  | zp | zpX | zpY | abs | absX | absY | izpX | izpY | izp | iabs | iabsX
  | rel | rel16 | sr | isrY | rr | irrY
deriving DecidableEq, Repr

/-- The addressing mode of a memory operand. -/
def MemMode.mode : MemMode → Mode
  | .zp _ => .zp
  | .zpX _ => .zpX
  | .zpY _ => .zpY
  | .abs _ => .abs
  | .absX _ => .absX
  | .absY _ => .absY
  | .izpX _ => .izpX
  | .izpY _ => .izpY
  | .izp _ => .izp
  | .sr _ => .sr
  | .isrY _ => .isrY
  | .rr _ => .rr
  | .irrY _ => .irrY

/-- The addressing mode of an operand. -/
def Operand.mode : Operand → Mode
  | .implied => .implied
  | .acc => .acc
  | .immM _ => .immM
  | .immX _ => .immX
  | .imm8 _ => .imm8
  | .mem m => m.mode
  | .iabs _ => .iabs
  | .iabsX _ => .iabsX
  | .rel _ => .rel
  | .rel16 _ => .rel16

/-- The opcodes of an operation with their addressing modes, as its rule lists them under "Encoding". -/
def RowsOf (op : Op) (rows : List (Byte × Mode)) : Prop := ∀ i : Instr, i.op = op ↔ (i.opcode, i.operand.mode) ∈ rows

/-- The thirteen-mode group of an operation whose row base is `n` (41_arith_logic.md, common notation). -/
def thirteenModes (n : Byte) : List (Byte × Mode) :=
  [(n + 0x01, .izpX), (n + 0x03, .sr), (n + 0x05, .zp), (n + 0x07, .rr), (n + 0x09, .immM), (n + 0x0D, .abs),
    (n + 0x11, .izpY), (n + 0x12, .izp), (n + 0x13, .isrY), (n + 0x15, .zpX), (n + 0x17, .irrY), (n + 0x19, .absY),
    (n + 0x1D, .absX)]

end Sys2Proof

namespace Sys2Proof.Machine

/-- The mode invariant (10_state.md R41) and the index invariant (R42). -/
abbrev State.ModeInv (s : State) : Prop :=
  (s.fE = true → s.fM = true ∧ s.fX = true) ∧ (s.fX = true → hiByte s.x = 0 ∧ hiByte s.y = 0)

/-- The wake tokens are within their cap (60_exceptions.md R491). -/
abbrev State.TokenInv (s : State) : Prop := s.tokens ≤ Config.wakeTokenCap

/-- The launch premise of 70_reset_and_hazards.md R533: the run loop runs only once the machine has been reset. -/
abbrev State.LaunchInv (s : State) : Prop := s.running = true → s.wasReset = true

/-- The invariant of the machine: a legal mode, tokens within the cap, no run before a reset, parameters that the spec
admits, memory in its canonical form. -/
abbrev State.Inv (s : State) : Prop :=
  s.ModeInv ∧ s.TokenInv ∧ s.LaunchInv ∧ s.params.Admitted ∧ Memory.wf s.mem = true

/-- A platform is within the spec: its parameters and token count are admitted (00_scope.md R8), no two devices have one
start (20_memory.md R83), and its launch content is in canonical form. -/
abbrev Platform.Admitted (p : Platform) : Prop :=
  p.params.Admitted ∧ p.wakeTokensInit ≤ Config.wakeTokenCap ∧ distinctStarts p.devices = true ∧ Memory.wf p.ram = true

/-- Every address has a device that reaches it, whatever the RedBus window hides (70_reset_and_hazards.md R534). -/
def State.DevicesCover (s : State) : Prop := ∀ a : Word, ∃ dv, nearestDevice s.devices a = some dv ∧ a ≤ dv.stop

/-- A machine step is enabled (60_exceptions.md R490): the platform is within the spec, the core is not halted, the run
loop runs, and a wait has a token to end it. -/
def State.Enabled (s : State) : Prop :=
  distinctStarts s.devices = true ∧ s.halted = false ∧ s.running = true ∧ (s.waiting = true → 0 < s.tokens)

/-- A stop that the spec gives a state with no enabled step (60_exceptions.md R490, R494), not an access that went wrong. -/
def Fault.isStuck : Fault → Bool
  | .halted | .notRunning | .waitBlocked => true
  | .busUnmapped _ => false

/-! ## Results, in the words of the rules -/

/-- An 8-bit accumulator result with its N and Z: `AH` stays (00_scope.md R12). -/
def State.accResult8 (s : State) (r : Byte) : State := { s with al := r, fN := r.msb, fZ := decide (r = 0) }

/-- A 16-bit accumulator result with its N and Z (00_scope.md R12). -/
def State.accResult16 (s : State) (r : Word) : State :=
  { s with al := loByte r, ah := hiByte r, fN := r.msb, fZ := decide (r = 0) }

/-- An 8-bit result in X with its N and Z: the high byte is zero (10_state.md R32). -/
def State.xResult8 (s : State) (r : Byte) : State := { s with x := zext r, fN := r.msb, fZ := decide (r = 0) }

/-- A 16-bit result in X with its N and Z. -/
def State.xResult16 (s : State) (r : Word) : State := { s with x := r, fN := r.msb, fZ := decide (r = 0) }

/-- An 8-bit result in Y with its N and Z: the high byte is zero (10_state.md R32). -/
def State.yResult8 (s : State) (r : Byte) : State := { s with y := zext r, fN := r.msb, fZ := decide (r = 0) }

/-- A 16-bit result in Y with its N and Z. -/
def State.yResult16 (s : State) (r : Word) : State := { s with y := r, fN := r.msb, fZ := decide (r = 0) }

/-- The flags of an unsigned comparison at 8 bits (41_arith_logic.md R225). -/
def State.compareFlags8 (s : State) (reg m : Byte) : State :=
  { s with fC := decide (m ≤ reg), fN := (reg - m).msb, fZ := decide (reg = m) }

/-- The flags of an unsigned comparison at 16 bits (41_arith_logic.md R225). -/
def State.compareFlags16 (s : State) (reg m : Word) : State :=
  { s with fC := decide (m ≤ reg), fN := (reg - m).msb, fZ := decide (reg = m) }

/-- A byte holds the status byte of a state, bit by bit (10_state.md R43). -/
def IsStatusByte (p : Byte) (s : State) : Prop :=
  p.getLsbD 7 = s.fN ∧ p.getLsbD 6 = s.fV ∧ p.getLsbD 5 = s.fM ∧ p.getLsbD 4 = (if s.fE then s.fB else s.fX) ∧
    p.getLsbD 3 = s.fD ∧ p.getLsbD 2 = s.fI ∧ p.getLsbD 1 = s.fZ ∧ p.getLsbD 0 = s.fC

/-! ## Stores -/

/-- Every byte of memory but those of a store at an address and width is as before. -/
def SameBytesBut (w : Width) (ea : Word) (s t : State) : Prop :=
  ∀ b : Word, b ≠ ea → (w = .w16 → b ≠ ea + 1) → Memory.read t.mem b.toNat = Memory.read s.mem b.toNat

/-- A read-modify-write of a place at a width: `v` is the operand read, `r` what is written, `t` the state after it
(40_addressing.md R196, R197, R198). -/
def Updated (w : Width) (loc : Loc) (s : State) (v r : Word) (t : State) : Prop :=
  match loc with
  | .acc => v = s.acc w ∧ t = (match w with
      | .w8 => { s with al := loByte r }
      | .w16 => { s with al := loByte r, ah := hiByte r })
  | .mem m => ∃ ea s1 s2, effAddr m s = .ok (ea, s1) ∧ memReadW w ea s1 = .ok (v, s2) ∧ memWriteW w ea r s2 = .ok t

/-- What a read-modify-write of a place leaves: of the accumulator, everything else; of memory, everything but the record
of interactions and the bytes at the operand's address. -/
def UpdateFrame (w : Width) (loc : Loc) (s t : State) : Prop :=
  match loc with
  | .acc => t = { s with al := t.al, ah := t.ah } ∧ (w = .w8 → t.ah = s.ah)
  | .mem m => t = { s with mem := t.mem, events := t.events } ∧
      ∀ ea s1, effAddr m s = .ok (ea, s1) → Memory.wf s.mem = true → SameBytesBut w ea s t

/-! ## The stacks, as 45_stack.md R350 and 46_aux_stack.md R380 describe them -/

/-- `Push8(v)`: the byte goes to the offset SP of the data-stack window, then SP goes down by one. -/
def PushesByte (v : Byte) (s t : State) : Prop :=
  ∃ u, busWrite (s.params.dstackBase + zext s.sp) v s = .ok u ∧ t = { u with sp := s.sp - 1 }

/-- `Push16(v)`: the high byte, then the low byte. -/
def PushesWord (v : Word) (s t : State) : Prop := ∃ u, PushesByte (hiByte v) s u ∧ PushesByte (loByte v) u t

/-- `Pop8()`: SP goes up by one, then the byte comes from its offset. -/
def PullsByte (v : Byte) (s t : State) : Prop :=
  busRead (s.params.dstackBase + zext (s.sp + 1)) { s with sp := s.sp + 1 } = .ok (v, t)

/-- `Pop16()`: the low byte, then the high byte. -/
def PullsWord (v : Word) (s t : State) : Prop := ∃ lo hi u, PullsByte lo s u ∧ PullsByte hi u t ∧ v = mkWord lo hi

/-- `RPush8(v)`: as `Push8` with R and the auxiliary-stack window. -/
def RPushesByte (v : Byte) (s t : State) : Prop :=
  ∃ u, busWrite (s.params.rstackBase + zext s.r) v s = .ok u ∧ t = { u with r := s.r - 1 }

/-- `RPush16(v)`. -/
def RPushesWord (v : Word) (s t : State) : Prop := ∃ u, RPushesByte (hiByte v) s u ∧ RPushesByte (loByte v) u t

/-- `RPop8()`. -/
def RPullsByte (v : Byte) (s t : State) : Prop :=
  busRead (s.params.rstackBase + zext (s.r + 1)) { s with r := s.r + 1 } = .ok (v, t)

/-- `RPop16()`. -/
def RPullsWord (v : Word) (s t : State) : Prop := ∃ lo hi u, RPullsByte lo s u ∧ RPullsByte hi u t ∧ v = mkWord lo hi

/-- `PushW(v, w)`. -/
def Pushes (w : Width) (v : Word) (s t : State) : Prop :=
  match w with
  | .w8 => PushesByte (loByte v) s t
  | .w16 => PushesWord v s t

/-- `PopW(w)`. -/
def Pulls (w : Width) (v : Word) (s t : State) : Prop :=
  match w with
  | .w8 => ∃ b, PullsByte b s t ∧ v = zext b
  | .w16 => PullsWord v s t

/-- `RPushW(v, w)`. -/
def RPushes (w : Width) (v : Word) (s t : State) : Prop :=
  match w with
  | .w8 => RPushesByte (loByte v) s t
  | .w16 => RPushesWord v s t

/-- `RPopW(w)`. -/
def RPulls (w : Width) (v : Word) (s t : State) : Prop :=
  match w with
  | .w8 => ∃ b, RPullsByte b s t ∧ v = zext b
  | .w16 => RPullsWord v s t

/-- What a push of `n` bytes on the data stack leaves: all but SP, the record of interactions, and the bytes of its
window at the `n` offsets from SP downward. -/
def PushFrame (n : Nat) (s t : State) : Prop :=
  t = { s with sp := s.sp - BitVec.ofNat 8 n, mem := t.mem, events := t.events } ∧
    (Memory.wf s.mem = true → ∀ b : Word, (∀ k < n, b ≠ s.params.dstackBase + zext (s.sp - BitVec.ofNat 8 k)) →
      Memory.read t.mem b.toNat = Memory.read s.mem b.toNat)

/-- What a push of `n` bytes on the auxiliary stack leaves: as `PushFrame`, with R and its window. -/
def RPushFrame (n : Nat) (s t : State) : Prop :=
  t = { s with r := s.r - BitVec.ofNat 8 n, mem := t.mem, events := t.events } ∧
    (Memory.wf s.mem = true → ∀ b : Word, (∀ k < n, b ≠ s.params.rstackBase + zext (s.r - BitVec.ofNat 8 k)) →
      Memory.read t.mem b.toNat = Memory.read s.mem b.toNat)

/-- The state after the status byte `p` is written (10_state.md R44): emulation mode keeps the widths and takes bit 4 as
fB; native mode takes the widths and, where bit 4 makes the index 8-bit, cuts the index registers. -/
def State.withStatus (s : State) (p : Byte) : State :=
  { s with
    fN := p.getLsbD 7, fV := p.getLsbD 6, fD := p.getLsbD 3, fI := p.getLsbD 2, fZ := p.getLsbD 1, fC := p.getLsbD 0
    fM := if s.fE then s.fM else p.getLsbD 5
    fX := if s.fE then s.fX else p.getLsbD 4
    fB := if s.fE then p.getLsbD 4 else s.fB
    x := if !s.fE && p.getLsbD 4 then zext (loByte s.x) else s.x
    y := if !s.fE && p.getLsbD 4 then zext (loByte s.y) else s.y }

/-- An interrupt entry with the break flag `brk`: the return address and then the status byte are pushed, fI is set, fD is
cleared where `P_INT_CLEARS_D` says so, PC is the vector (60_exceptions.md R487, 44_control.md R324). -/
def EntersInterrupt (brk : Bool) (returnAddress vector : Word) (s t : State) : Prop :=
  ∃ u p v, PushesWord returnAddress { s with fB := brk } u ∧ IsStatusByte p u ∧ PushesByte p u v ∧
    t = { v with fI := true, fD := v.fD && !s.params.intClearsD, pc := vector }

/-! ## Decimal digits -/

/-- The decimal digit `k` of a number written one digit in four bits. -/
def digit (k : Nat) (v : Word) : Nat := v.toNat / 16 ^ k % 16

/-- Whether the lowest `n` digits are decimal digits. -/
def IsBcd (n : Nat) (v : Word) : Prop := ∀ k < n, digit k v ≤ 9

/-- The value of the lowest `n` decimal digits. -/
def bcdValue : (n : Nat) → Word → Nat
  | 0, _ => 0
  | n + 1, v => bcdValue n v + digit n v * 10 ^ n

end Sys2Proof.Machine
end

