-- ==== Sys2Proof/Certificates/Slice0/Obligations.lean ====
section
/-! DEFINITION. The statements about the model, each with the rule of the spec it formalises. `PC` is, wherever `exec` is
named, the address of the byte after the instruction (30_encoding.md R140). A statement whose docstring names no log entry
rests on the spec alone. -/

open Sys2Proof Sys2Proof.Machine

/-! ## Encoding (30_encoding.md) -/

/-- Decoding the encoding of a well-formed instruction gives the instruction and leaves the bytes after it, at every pair
of widths (R130, R131, R133, R134), also where other opcodes are in `P_ILLEGAL_OPCODES` (R137). -/
def Obligations.DecodeOfEncodeIsSame : Prop :=
  ∀ (wM wX : Width) (i : Instr) (rest : List Byte),
    i.wf wM wX = true → decode wM wX (encode wM wX i ++ rest) = .ok (i, rest) ∧
      ∀ illegal : List Byte, i.opcode ∉ illegal → decodeIn illegal wM wX (encode wM wX i ++ rest) = .ok (i, rest)

/-- What the decoder consumes is the encoding of what it answers, and what it answers is well-formed (R130, R134). -/
def Obligations.DecodedBytesAreTheEncoding : Prop :=
  ∀ (wM wX : Width) (bytes rest : List Byte) (i : Instr),
    decode wM wX bytes = .ok (i, rest) → bytes = encode wM wX i ++ rest ∧ i.wf wM wX = true

/-- Every opcode byte is decoded, at every pair of widths, whatever follows it; the illegal row is 0xFF alone; and an
opcode in `P_ILLEGAL_OPCODES` is removed from its row and is the illegal instruction, of length one (R137, decision D2; log
entry 33). -/
def Obligations.EveryOpcodeDecodes : Prop :=
  (∀ (wM wX : Width) (opcode b1 b2 : Byte) (rest : List Byte),
    ∃ i left, decode wM wX (opcode :: b1 :: b2 :: rest) = .ok (i, left) ∧ i.opcode = opcode) ∧
  (∀ i : Instr, i.opcode = 0xFF ↔ i = .illegal) ∧
  (∀ (illegal : List Byte) (wM wX : Width) (opcode : Byte) (rest : List Byte), opcode ∈ illegal →
    decodeIn illegal wM wX (opcode :: rest) = .ok (.illegal, rest))

/-- An instruction's length is one, two or three bytes, is that of its encoding, and depends on the widths for the twelve
width-sensitive immediates alone, which are one byte longer at width 16 (R130, R133, R139, decision D9). -/
def Obligations.LengthFollowsWidths : Prop :=
  ∀ i : Instr,
    (∀ wM wX, 1 ≤ i.length wM wX ∧ i.length wM wX ≤ 3 ∧ (encode wM wX i).length = i.length wM wX) ∧
    (∀ wM wX, i.length wM wX = i.length .w8 .w8
      + (if wM = .w16 ∧ i.opcode ∈ [0x09, 0x29, 0x49, 0x69, 0xE9, 0xC9, 0xA9, 0x89] then 1 else 0)
      + (if wX = .w16 ∧ i.opcode ∈ [0xA2, 0xA0, 0xE0, 0xC0] then 1 else 0))

/-- A few words written out from the opcode table decode to the instructions they stand for (R135). -/
def Obligations.SampleWordsDecode : Prop :=
  decode .w8 .w8 [0x65, 0x10] = .ok (.adcZp 0x10, []) ∧
  decode .w16 .w8 [0x69, 0x34, 0x12] = .ok (.adcImmM 0x1234, []) ∧
  decode .w8 .w16 [0xA2, 0x34, 0x12, 0xEA] = .ok (.ldxImmX 0x1234, [0xEA]) ∧
  decode .w8 .w8 [0x1E, 0x00, 0x03] = .ok (.aslAbsX 0x0300, []) ∧
  decode .w8 .w8 [0x80, 0xFE] = .ok (.bra 0xFE, []) ∧
  decode .w8 .w8 [0x62, 0x10, 0x00] = .ok (.per 0x0010, []) ∧
  decode .w8 .w8 [0x22, 0x00, 0x50] = .ok (.ent 0x5000, []) ∧
  decode .w8 .w8 [0xC2, 0x30] = .ok (.rep 0x30, []) ∧
  decode .w8 .w8 [0x5F, 0x20] = .ok (.divZpX 0x20, []) ∧
  decode .w8 .w8 [0xEF, 0x81] = .ok (.mmu 0x81, []) ∧
  decode .w8 .w8 [0xFF] = .ok (.illegal, [])

/-! ## The bus (20_memory.md, 00_scope.md R13) -/

/-- A bus read goes to the RedBus if the address is in its window, else to the device with the greatest start at or below
the address, else it faults; the RedBus answers 0 while it is disabled or its active slot is empty, RAM answers the byte it
holds, and any other reader is asked, at its local address (R82, R84, R86, R90, R91, R93; decisions D26, D27, D41; log
entries 7 and 8). -/
def Obligations.BusReadFollowsDispatch : Prop :=
  ∀ (s : State) (a : Word),
    (s.rbWindow.toNat ≤ a.toNat ∧ a.toNat ≤ s.rbWindow.toNat + 255 →
      (s.rbEnabled = false ∨ s.activePeripheral = none → busRead a s = .ok (0, s)) ∧
      (∀ p, s.rbEnabled = true → s.activePeripheral = some p →
        let e := HostEvent.peripheralRead p (BitVec.ofNat 8 (a.toNat - s.rbWindow.toNat)) :: s.events
        busRead a s = .ok (Config.deviceAnswer e, { s with events := e }))) ∧
    (¬ (s.rbWindow.toNat ≤ a.toNat ∧ a.toNat ≤ s.rbWindow.toNat + 255) → distinctStarts s.devices = true →
      (∀ dv ∈ s.devices, dv.start ≤ a → (∀ e ∈ s.devices, e.start ≤ a → e.start ≤ dv.start) →
        (dv.stop < a → busRead a s = .error (.busUnmapped a)) ∧
        (a ≤ dv.stop → dv.kind = .ram → busRead a s = .ok (Memory.read s.mem a.toNat, s)) ∧
        (∀ id, a ≤ dv.stop → dv.kind = .external id →
          let e := HostEvent.deviceRead id (a - dv.start) :: s.events
          busRead a s = .ok (Config.deviceAnswer e, { s with events := e }))) ∧
      ((∀ dv ∈ s.devices, a < dv.start) → busRead a s = .error (.busUnmapped a)))

/-- A bus write goes where a bus read of the address would go: the RedBus drops it while it is disabled or its active slot
is empty, RAM holds the byte, and any other writer is told (R82, R85, R90, R92, R93; decisions D26, D27; log entry 23). -/
def Obligations.BusWriteFollowsDispatch : Prop :=
  ∀ (s : State) (a : Word) (v : Byte),
    (s.rbWindow.toNat ≤ a.toNat ∧ a.toNat ≤ s.rbWindow.toNat + 255 →
      (s.rbEnabled = false ∨ s.activePeripheral = none → busWrite a v s = .ok s) ∧
      (∀ p, s.rbEnabled = true → s.activePeripheral = some p →
        let e := HostEvent.peripheralWrite p (BitVec.ofNat 8 (a.toNat - s.rbWindow.toNat)) v :: s.events
        busWrite a v s = .ok { s with events := e })) ∧
    (¬ (s.rbWindow.toNat ≤ a.toNat ∧ a.toNat ≤ s.rbWindow.toNat + 255) → distinctStarts s.devices = true →
      (∀ dv ∈ s.devices, dv.start ≤ a → (∀ e ∈ s.devices, e.start ≤ a → e.start ≤ dv.start) →
        (dv.stop < a → busWrite a v s = .error (.busUnmapped a)) ∧
        (a ≤ dv.stop → dv.kind = .ram → ∃ t, busWrite a v s = .ok t ∧ t = { s with mem := t.mem } ∧
          (Memory.wf s.mem = true → ∀ b : Word,
            Memory.read t.mem b.toNat = if b = a then v else Memory.read s.mem b.toNat)) ∧
        (∀ id, a ≤ dv.stop → dv.kind = .external id →
          let e := HostEvent.deviceWrite id (a - dv.start) v :: s.events
          busWrite a v s = .ok { s with events := e })) ∧
      ((∀ dv ∈ s.devices, a < dv.start) → busWrite a v s = .error (.busUnmapped a)))

/-- A 16-bit datum written to RAM lies low byte first, at any address, and is read back (R97, R98; decision D7). -/
def Obligations.WordInRamIsLittleEndian : Prop :=
  ∀ (s : State) (a v : Word), Memory.wf s.mem = true → s.busTarget a = .ram → s.busTarget (a + 1) = .ram →
    ∃ t, memWriteW .w16 a v s = .ok t ∧ t = { s with mem := t.mem } ∧
      Memory.read t.mem a.toNat = loByte v ∧ Memory.read t.mem (a + 1).toNat = hiByte v ∧
      SameBytesBut .w16 a s t ∧ memReadW .w16 a t = .ok (v, t)

/-! ## Addressing (40_addressing.md) -/

/-- The addresses of the modes that read no pointer (R174 to R179, R187, R189; decisions D6, D47). -/
def Obligations.DirectAddresses : Prop :=
  ∀ (s : State) (b : Byte) (w : Word),
    effAddr (.zp b) s = .ok (zext b, s) ∧
    effAddr (.zpX b) s = .ok (BitVec.ofNat 16 ((b.toNat + s.x.toNat) % 256), s) ∧
    effAddr (.zpY b) s = .ok (BitVec.ofNat 16 ((b.toNat + s.y.toNat) % 256), s) ∧
    effAddr (.abs w) s = .ok (w, s) ∧
    effAddr (.absX w) s = .ok (BitVec.ofNat 16 (w.toNat + s.x.toNat), s) ∧
    effAddr (.absY w) s = .ok (BitVec.ofNat 16 (w.toNat + s.y.toNat), s) ∧
    effAddr (.sr b) s = .ok (BitVec.ofNat 16 (s.params.dstackBase.toNat + (s.sp.toNat + b.toNat) % 256), s) ∧
    effAddr (.rr b) s = .ok (BitVec.ofNat 16 (s.params.rstackBase.toNat + (s.r.toNat + b.toNat) % 256), s)

/-- The addresses of the modes that read a pointer: both its bytes lie in page 0, or in the stack window, the low byte is
read first, and Y is added after (R180, R181, R182, R188, R190, R192, 00_scope.md R14; decision D6). -/
def Obligations.PointerAddresses : Prop :=
  ∀ (s t u : State) (b lo hi : Byte),
    (∀ at_ : Nat, busRead (BitVec.ofNat 16 (at_ % 256)) s = .ok (lo, t) →
      busRead (BitVec.ofNat 16 ((at_ + 1) % 256)) t = .ok (hi, u) →
      (at_ = b.toNat + s.x.toNat → effAddr (.izpX b) s = .ok (mkWord lo hi, u)) ∧
      (at_ = b.toNat → effAddr (.izp b) s = .ok (mkWord lo hi, u) ∧
        effAddr (.izpY b) s = .ok (mkWord lo hi + s.y, u))) ∧
    (busRead (BitVec.ofNat 16 (s.params.dstackBase.toNat + (s.sp.toNat + b.toNat) % 256)) s = .ok (lo, t) →
      busRead (BitVec.ofNat 16 (s.params.dstackBase.toNat + (s.sp.toNat + b.toNat + 1) % 256)) t = .ok (hi, u) →
      effAddr (.isrY b) s = .ok (mkWord lo hi + s.y, u)) ∧
    (busRead (BitVec.ofNat 16 (s.params.rstackBase.toNat + (s.r.toNat + b.toNat) % 256)) s = .ok (lo, t) →
      busRead (BitVec.ofNat 16 (s.params.rstackBase.toNat + (s.r.toNat + b.toNat + 1) % 256)) t = .ok (hi, u) →
      effAddr (.irrY b) s = .ok (mkWord lo hi + s.y, u))

/-! ## Logic, arithmetic, bit test and compare (41_arith_logic.md)

`readSrc w src s = .ok (m, t)` says that the operand of width `w` is readable and is `m`; `t` differs from `s` in the record
of interactions alone. -/

/-- ORA, AND and EOR combine the accumulator with the operand bit by bit at the accumulator width, set N and Z from the
result and change nothing else; at width 8 `AH` stays (R210, R211, R212). -/
def Obligations.LogicResults : Prop :=
  RowsOf .ora (thirteenModes 0x00) ∧ RowsOf .and (thirteenModes 0x20) ∧ RowsOf .eor (thirteenModes 0x40) ∧
  ∀ (i : Instr) (src : Src) (s : State), i.operand.src? = some src →
    (s.fM = true → ∀ m t, readSrc .w8 src s = .ok (m, t) →
      (i.op = .ora → exec i s = .next { s.accResult8 (s.al ||| loByte m) with events := t.events }) ∧
      (i.op = .and → exec i s = .next { s.accResult8 (s.al &&& loByte m) with events := t.events }) ∧
      (i.op = .eor → exec i s = .next { s.accResult8 (s.al ^^^ loByte m) with events := t.events })) ∧
    (s.fM = false → ∀ m t, readSrc .w16 src s = .ok (m, t) →
      (i.op = .ora → exec i s = .next { s.accResult16 (mkWord s.al s.ah ||| m) with events := t.events }) ∧
      (i.op = .and → exec i s = .next { s.accResult16 (mkWord s.al s.ah &&& m) with events := t.events }) ∧
      (i.op = .eor → exec i s = .next { s.accResult16 (mkWord s.al s.ah ^^^ m) with events := t.events })) ∧
    (∀ f, i.op = .ora ∨ i.op = .and ∨ i.op = .eor → readSrc s.wM src s = .error f → exec i s = .fault f)

/-- Binary ADC: the carry is whether the unmasked sum exceeds the mask, the overflow is whether operands of one sign give a
result of the other, N and Z come from the result, and nothing else changes (R213, R214). -/
def Obligations.AdcBinaryResult : Prop :=
  ∀ (i : Instr) (src : Src) (s : State), i.op = .adc → i.operand.src? = some src → s.fD = false →
    (s.fM = true → ∀ m t, readSrc .w8 src s = .ok (m, t) →
      let sum := s.al.toNat + (loByte m).toNat + s.fC.toNat
      let r : Byte := BitVec.ofNat 8 sum
      exec i s = .next { s.accResult8 r with
        fC := decide (255 < sum), fV := decide (s.al.msb = (loByte m).msb ∧ r.msb ≠ s.al.msb), events := t.events }) ∧
    (s.fM = false → ∀ m t, readSrc .w16 src s = .ok (m, t) →
      let a := mkWord s.al s.ah
      let sum := a.toNat + m.toNat + s.fC.toNat
      let r : Word := BitVec.ofNat 16 sum
      exec i s = .next { s.accResult16 r with
        fC := decide (65535 < sum), fV := decide (a.msb = m.msb ∧ r.msb ≠ a.msb), events := t.events })

/-- Binary SBC: the result is the difference less the borrow, the carry says that there was no borrow, the overflow is
whether operands of different sign give a result of the operand's sign, and nothing else changes (R216, R217). -/
def Obligations.SbcBinaryResult : Prop :=
  ∀ (i : Instr) (src : Src) (s : State), i.op = .sbc → i.operand.src? = some src → s.fD = false →
    (s.fM = true → ∀ m t, readSrc .w8 src s = .ok (m, t) →
      let borrow := 1 - s.fC.toNat
      let r : Byte := s.al - loByte m - BitVec.ofNat 8 borrow
      exec i s = .next { s.accResult8 r with
        fC := decide ((loByte m).toNat + borrow ≤ s.al.toNat)
        fV := decide (s.al.msb ≠ (loByte m).msb ∧ r.msb ≠ s.al.msb), events := t.events }) ∧
    (s.fM = false → ∀ m t, readSrc .w16 src s = .ok (m, t) →
      let a := mkWord s.al s.ah
      let borrow := 1 - s.fC.toNat
      let r : Word := a - m - BitVec.ofNat 16 borrow
      exec i s = .next { s.accResult16 r with
        fC := decide (m.toNat + borrow ≤ a.toNat), fV := decide (a.msb ≠ m.msb ∧ r.msb ≠ a.msb), events := t.events })

/-- The overflow flag of binary ADC and SBC at width 8 says that the exact signed result is out of range, and the result is
the exact one modulo 256 (R214, R217, whose formula the spec takes from general knowledge). -/
def Obligations.OverflowMeansSignedOutOfRange : Prop :=
  ∀ (i : Instr) (src : Src) (s : State) (m : Word) (t : State), i.operand.src? = some src → s.fD = false → s.fM = true →
    readSrc .w8 src s = .ok (m, t) →
    (i.op = .adc → ∃ u, exec i s = .next u ∧
      let exact_ := s.al.toInt + (loByte m).toInt + (s.fC.toNat : Int)
      u.al = BitVec.ofInt 8 exact_ ∧ (u.fV = true ↔ exact_ < -128 ∨ 127 < exact_)) ∧
    (i.op = .sbc → ∃ u, exec i s = .next u ∧
      let exact_ := s.al.toInt - (loByte m).toInt - (1 - (s.fC.toNat : Int))
      u.al = BitVec.ofInt 8 exact_ ∧ (u.fV = true ↔ exact_ < -128 ∨ 127 < exact_))

/-- Decimal ADC, digit by digit from the least significant: `c k` is the carry into digit `k`, the carry out of the last
digit goes to fC, fV is cleared, N and Z come from the result (R215, whose four digits and correction are decisions D21 and
D48 of the spec). -/
def Obligations.AdcDecimalDigits : Prop :=
  ∀ (i : Instr) (src : Src) (s : State) (m : Word) (t : State) (c : Nat → Bool) (r : Word), i.op = .adc →
    i.operand.src? = some src → s.fD = true → readSrc s.wM src s = .ok (m, t) →
    (let d := fun k => digit k (s.acc s.wM) + digit k m + (c k).toNat
     c 0 = s.fC ∧ ∀ k < s.wM.bits / 4,
      c (k + 1) = decide (15 < if 9 < d k then d k + 6 else d k) ∧ digit k r = (if 9 < d k then d k + 6 else d k) % 16) →
    (s.fM = true → exec i s = .next { s.accResult8 (loByte r) with fC := c 2, fV := false, events := t.events }) ∧
    (s.fM = false → exec i s = .next { s.accResult16 r with fC := c 4, fV := false, events := t.events })

/-- Decimal SBC, digit by digit from the least significant: `b k` is the borrow into digit `k`, fC is the complement of the
borrow out of the last digit, fV is cleared, N and Z come from the result (R218, decision D21 of the spec). -/
def Obligations.SbcDecimalDigits : Prop :=
  ∀ (i : Instr) (src : Src) (s : State) (m : Word) (t : State) (b : Nat → Bool) (r : Word), i.op = .sbc →
    i.operand.src? = some src → s.fD = true → readSrc s.wM src s = .ok (m, t) →
    (let d := fun k => (digit k (s.acc s.wM) : Int) - (digit k m : Int) - ((b k).toNat : Int)
     b 0 = !s.fC ∧ ∀ k < s.wM.bits / 4,
      b (k + 1) = decide (d k < 0) ∧ (digit k r : Int) = (if d k < 0 then d k + 10 else d k) % 16) →
    (s.fM = true → exec i s = .next { s.accResult8 (loByte r) with fC := !b 2, fV := false, events := t.events }) ∧
    (s.fM = false → exec i s = .next { s.accResult16 r with fC := !b 4, fV := false, events := t.events })

/-- On decimal operands, decimal ADC and SBC answer decimal digits, and their value is the exact sum or difference up to the
carry (R215, R218; decision D21 of the spec). -/
def Obligations.DecimalValueIsExact : Prop :=
  ∀ (i : Instr) (src : Src) (s : State) (m : Word) (t : State), i.operand.src? = some src → s.fD = true →
    readSrc s.wM src s = .ok (m, t) →
    let n := s.wM.bits / 4
    IsBcd n (s.acc s.wM) → IsBcd n m →
    (i.op = .adc → ∃ u, exec i s = .next u ∧ IsBcd n (u.acc s.wM) ∧
      bcdValue n (u.acc s.wM) + 10 ^ n * u.fC.toNat = bcdValue n (s.acc s.wM) + bcdValue n m + s.fC.toNat) ∧
    (i.op = .sbc → ∃ u, exec i s = .next u ∧ IsBcd n (u.acc s.wM) ∧
      bcdValue n (u.acc s.wM) + bcdValue n m + (1 - s.fC.toNat) = bcdValue n (s.acc s.wM) + 10 ^ n * (1 - u.fC.toNat))

/-- BIT sets Z from the AND of accumulator and operand; a memory form also sets N and V from the operand's two top bits, the
immediate form does not; the accumulator stays (R219, decision D9 and general knowledge of the spec). -/
def Obligations.BitResults : Prop :=
  ∀ (i : Instr) (src : Src) (s : State), i.op = .bit → i.operand.src? = some src →
    (s.fM = true → ∀ m t, readSrc .w8 src s = .ok (m, t) →
      ((∃ v, src = .imm v) → exec i s = .next { s with fZ := decide (s.al &&& loByte m = 0), events := t.events }) ∧
      ((∃ mm, src = .mem mm) → exec i s = .next { s with
        fZ := decide (s.al &&& loByte m = 0), fN := m.getLsbD 7, fV := m.getLsbD 6, events := t.events })) ∧
    (s.fM = false → ∀ m t, readSrc .w16 src s = .ok (m, t) →
      ((∃ v, src = .imm v) → exec i s = .next { s with fZ := decide (mkWord s.al s.ah &&& m = 0), events := t.events }) ∧
      ((∃ mm, src = .mem mm) → exec i s = .next { s with
        fZ := decide (mkWord s.al s.ah &&& m = 0), fN := m.getLsbD 15, fV := m.getLsbD 14, events := t.events }))

/-- TSB and TRB set and reset in memory the bits of the accumulator, at the address computed once, and set Z from the AND of
the accumulator with the operand as read; nothing else changes (R220, R221, R198). -/
def Obligations.TestAndSetResults : Prop :=
  ∀ (i : Instr) (mm : MemMode) (s : State), i.operand = .mem mm → i.op = .tsb ∨ i.op = .trb →
    ∀ ea s1 m s2 t, effAddr mm s = .ok (ea, s1) → memReadW s.wM ea s1 = .ok (m, s2) →
      memWriteW s.wM ea (if i.op = .tsb then m ||| s.acc s.wM else m &&& ~~~(s.acc s.wM)) s2 = .ok t →
      exec i s = .next { t with fZ := decide (s.acc s.wM &&& m = 0) } ∧
      t = { s with mem := t.mem, events := t.events } ∧
      (Memory.wf s.mem = true → SameBytesBut s.wM ea s t)

/-- CMP, CPX and CPY compare unsigned at the width of their register: carry if the register is not below the operand, N and
Z from the difference; no register changes (R222, R223, R224, R225). -/
def Obligations.CompareResults : Prop :=
  RowsOf .cmp (thirteenModes 0xC0) ∧ RowsOf .cpx [(0xE0, .immX), (0xE4, .zp), (0xEC, .abs)] ∧
  RowsOf .cpy [(0xC0, .immX), (0xC4, .zp), (0xCC, .abs)] ∧
  ∀ (i : Instr) (src : Src) (s : State), i.operand.src? = some src →
    (∀ m t, readSrc .w8 src s = .ok (m, t) →
      (i.op = .cmp → s.fM = true → exec i s = .next { s.compareFlags8 s.al (loByte m) with events := t.events }) ∧
      (i.op = .cpx → s.fX = true → exec i s = .next { s.compareFlags8 (loByte s.x) (loByte m) with events := t.events }) ∧
      (i.op = .cpy → s.fX = true → exec i s = .next { s.compareFlags8 (loByte s.y) (loByte m) with events := t.events })) ∧
    (∀ m t, readSrc .w16 src s = .ok (m, t) →
      (i.op = .cmp → s.fM = false →
        exec i s = .next { s.compareFlags16 (mkWord s.al s.ah) m with events := t.events }) ∧
      (i.op = .cpx → s.fX = false → exec i s = .next { s.compareFlags16 s.x m with events := t.events }) ∧
      (i.op = .cpy → s.fX = false → exec i s = .next { s.compareFlags16 s.y m with events := t.events })) ∧
    (∀ f, (i.op = .cmp → readSrc s.wM src s = .error f → exec i s = .fault f) ∧
      (i.op = .cpx ∨ i.op = .cpy → readSrc s.wX src s = .error f → exec i s = .fault f))

/-! ## Shifts, increments, loads, stores, transfers and flag operations (42_shift_incdec.md, 43_load_store_transfer.md) -/

/-- The shifts and rotates: the carry receives the bit shifted out, the rotates thread the old carry into the vacated bit,
N and Z come from the result; the accumulator form at width 8 leaves `AH`, a memory form changes memory at the operand's
address alone; the one exception is the fault of a bus access (R240, R241, R242, R243). -/
def Obligations.ShiftResults : Prop :=
  RowsOf .asl [(0x06, .zp), (0x0A, .acc), (0x0E, .abs), (0x16, .zpX), (0x1E, .absX)] ∧
  RowsOf .lsr [(0x46, .zp), (0x4A, .acc), (0x4E, .abs), (0x56, .zpX), (0x5E, .absX)] ∧
  RowsOf .rol [(0x26, .zp), (0x2A, .acc), (0x2E, .abs), (0x36, .zpX), (0x3E, .absX)] ∧
  RowsOf .ror [(0x66, .zp), (0x6A, .acc), (0x6E, .abs), (0x76, .zpX), (0x7E, .absX)] ∧
  (∀ (i : Instr) (mm : MemMode) (s : State) (f : Fault), i.op ∈ [Op.asl, .lsr, .rol, .ror] → i.operand = .mem mm →
    readSrc s.wM (.mem mm) s = .error f → exec i s = .fault f) ∧
  ∀ (i : Instr) (loc : Loc) (s : State) (v r : Word) (t : State), i.operand.loc? = some loc → Updated s.wM loc s v r t →
    let n := s.wM.bits
    let answers := fun carry : Bool =>
      exec i s = .next { t with fC := carry, fN := r.getLsbD (n - 1), fZ := decide (r = 0) }
    (i.op = .asl → r.toNat = 2 * v.toNat % 2 ^ n → answers (v.getLsbD (n - 1))) ∧
    (i.op = .lsr → r.toNat = v.toNat / 2 → answers (v.getLsbD 0)) ∧
    (i.op = .rol → r.toNat = (2 * v.toNat + s.fC.toNat) % 2 ^ n → answers (v.getLsbD (n - 1))) ∧
    (i.op = .ror → r.toNat = v.toNat / 2 + s.fC.toNat * 2 ^ (n - 1) → answers (v.getLsbD 0)) ∧
    UpdateFrame s.wM loc s t

/-- INC and DEC count the accumulator or memory up or down modulo the width and set N and Z; the carry and the overflow stay;
the one exception is the fault of a bus access (R244, R245). -/
def Obligations.IncDecResults : Prop :=
  RowsOf .inc [(0x1A, .acc), (0xE6, .zp), (0xEE, .abs), (0xF6, .zpX), (0xFE, .absX)] ∧
  RowsOf .dec [(0x3A, .acc), (0xC6, .zp), (0xCE, .abs), (0xD6, .zpX), (0xDE, .absX)] ∧
  (∀ (i : Instr) (mm : MemMode) (s : State) (f : Fault), i.op ∈ [Op.inc, .dec] → i.operand = .mem mm →
    readSrc s.wM (.mem mm) s = .error f → exec i s = .fault f) ∧
  ∀ (i : Instr) (loc : Loc) (s : State) (v r : Word) (t : State), i.operand.loc? = some loc → Updated s.wM loc s v r t →
    let n := s.wM.bits
    (i.op = .inc → r.toNat = (v.toNat + 1) % 2 ^ n →
      exec i s = .next { t with fN := r.getLsbD (n - 1), fZ := decide (r = 0) }) ∧
    (i.op = .dec → r.toNat = (v.toNat + (2 ^ n - 1)) % 2 ^ n →
      exec i s = .next { t with fN := r.getLsbD (n - 1), fZ := decide (r = 0) }) ∧
    UpdateFrame s.wM loc s t

/-- INX, INY, DEX and DEY count an index register modulo its width, keep its high byte zero at width 8, set N and Z, and
change nothing else (R246, R247, R248, R249). -/
def Obligations.IndexCountResults : Prop :=
  (RowsOf .inx [(0xE8, .implied)] ∧ RowsOf .iny [(0xC8, .implied)] ∧ RowsOf .dex [(0xCA, .implied)] ∧
    RowsOf .dey [(0x88, .implied)]) ∧
  ∀ s : State,
    exec .inx s = .next (if s.fX then s.xResult8 (loByte s.x + 1) else s.xResult16 (s.x + 1)) ∧
    exec .iny s = .next (if s.fX then s.yResult8 (loByte s.y + 1) else s.yResult16 (s.y + 1)) ∧
    exec .dex s = .next (if s.fX then s.xResult8 (loByte s.x - 1) else s.xResult16 (s.x - 1)) ∧
    exec .dey s = .next (if s.fX then s.yResult8 (loByte s.y - 1) else s.yResult16 (s.y - 1))

/-- LDA, LDX and LDY load the operand at the width of their register, set N and Z, and change nothing else; at width 8 LDA
leaves `AH` and the index registers are zero-extended (R270, R271, R272). -/
def Obligations.LoadResults : Prop :=
  RowsOf .lda (thirteenModes 0xA0) ∧
  RowsOf .ldx [(0xA2, .immX), (0xA6, .zp), (0xAE, .abs), (0xB6, .zpY), (0xBE, .absY)] ∧
  RowsOf .ldy [(0xA0, .immX), (0xA4, .zp), (0xAC, .abs), (0xB4, .zpX), (0xBC, .absX)] ∧
  ∀ (i : Instr) (src : Src) (s : State), i.operand.src? = some src →
    (∀ m t, readSrc .w8 src s = .ok (m, t) →
      (i.op = .lda → s.fM = true → exec i s = .next { s.accResult8 (loByte m) with events := t.events }) ∧
      (i.op = .ldx → s.fX = true → exec i s = .next { s.xResult8 (loByte m) with events := t.events }) ∧
      (i.op = .ldy → s.fX = true → exec i s = .next { s.yResult8 (loByte m) with events := t.events })) ∧
    (∀ m t, readSrc .w16 src s = .ok (m, t) →
      (i.op = .lda → s.fM = false → exec i s = .next { s.accResult16 m with events := t.events }) ∧
      (i.op = .ldx → s.fX = false → exec i s = .next { s.xResult16 m with events := t.events }) ∧
      (i.op = .ldy → s.fX = false → exec i s = .next { s.yResult16 m with events := t.events })) ∧
    (∀ f, (i.op = .lda → readSrc s.wM src s = .error f → exec i s = .fault f) ∧
      (i.op = .ldx ∨ i.op = .ldy → readSrc s.wX src s = .error f → exec i s = .fault f))

/-- STA, STX, STY and STZ store the accumulator, X, Y or zero at the width of their register to the operand's address, low
byte first, and change nothing else (R273, R274, R275, R276). -/
def Obligations.StoreResults : Prop :=
  (∀ i : Instr, i.op = .sta ↔ i.opcode ≠ 0x89 ∧ (i.opcode, i.operand.mode) ∈ thirteenModes 0x80) ∧
  RowsOf .stx [(0x86, .zp), (0x8E, .abs), (0x96, .zpY)] ∧
  RowsOf .sty [(0x84, .zp), (0x8C, .abs), (0x94, .zpX)] ∧
  RowsOf .stz [(0x64, .zp), (0x74, .zpX), (0x9C, .abs), (0x9E, .absX)] ∧
  ∀ (i : Instr) (mm : MemMode) (s : State) (w : Width) (v : Word), i.operand = .mem mm →
    (i.op = .sta ∧ w = s.wM ∧ v = s.acc s.wM ∨ i.op = .stx ∧ w = s.wX ∧ v = cut s.wX s.x ∨
      i.op = .sty ∧ w = s.wX ∧ v = cut s.wX s.y ∨ i.op = .stz ∧ w = s.wM ∧ v = 0) →
    (∀ f, effAddr mm s = .error f → exec i s = .fault f) ∧
    ∀ ea s1, effAddr mm s = .ok (ea, s1) →
      (∀ f, memWriteW w ea v s1 = .error f → exec i s = .fault f) ∧
      ∀ t, memWriteW w ea v s1 = .ok t →
        exec i s = .next t ∧ t = { s with mem := t.mem, events := t.events } ∧
        (Memory.wf s.mem = true → SameBytesBut w ea s t ∧
          (s.busTarget ea = .ram → Memory.read t.mem ea.toNat = loByte v) ∧
          (w = .w16 → s.busTarget (ea + 1) = .ram → Memory.read t.mem (ea + 1).toNat = hiByte v))

/-- The transfers between accumulator and index registers write the destination at its own width and set N and Z from the
value written; into a 16-bit index register the whole accumulator goes, its hidden byte too (R277, R278, R279, R280, R281,
R282; decision D12 of the spec). -/
def Obligations.TransferResults : Prop :=
  ∀ s : State,
    exec .tax s = .next (if s.fX then s.xResult8 s.al else s.xResult16 (mkWord s.al s.ah)) ∧
    exec .tay s = .next (if s.fX then s.yResult8 s.al else s.yResult16 (mkWord s.al s.ah)) ∧
    exec .txa s = .next (if s.fM then s.accResult8 (loByte s.x) else s.accResult16 s.x) ∧
    exec .tya s = .next (if s.fM then s.accResult8 (loByte s.y) else s.accResult16 s.y) ∧
    exec .txy s = .next (if s.fX then s.yResult8 (loByte s.x) else s.yResult16 s.x) ∧
    exec .tyx s = .next (if s.fX then s.xResult8 (loByte s.y) else s.xResult16 s.y)

/-- The transfers between X and the pointer registers SP, R and I: into a pointer register no flag is written and its own
width is filled, out of one N and Z come from the value at the index width (R283, R284, R389, R390, R391, R392; decision D12
of the spec). -/
def Obligations.PointerTransferResults : Prop :=
  ∀ s : State,
    exec .tsx s = .next { s with x := zext s.sp, fN := s.fX && s.sp.msb, fZ := decide (s.sp = 0) } ∧
    exec .txs s = .next { s with sp := loByte s.x } ∧
    exec .trx s = .next { s with x := zext s.r, fN := s.fX && s.r.msb, fZ := decide (s.r = 0) } ∧
    exec .txr s = .next { s with r := loByte s.x } ∧
    exec .txi s = .next { s with i := s.x } ∧
    exec .tix s = .next (if s.fX then s.xResult8 (loByte s.i) else s.xResult16 s.i)

/-- The flag operations write one flag each and NOP nothing (R285 to R292). -/
def Obligations.FlagOperationResults : Prop :=
  (RowsOf .clc [(0x18, .implied)] ∧ RowsOf .sec [(0x38, .implied)] ∧ RowsOf .cli [(0x58, .implied)] ∧
    RowsOf .sei [(0x78, .implied)] ∧ RowsOf .cld [(0xD8, .implied)] ∧ RowsOf .sed [(0xF8, .implied)] ∧
    RowsOf .clv [(0xB8, .implied)] ∧ RowsOf .nop [(0xEA, .implied)]) ∧
  ∀ s : State,
    exec .clc s = .next { s with fC := false } ∧ exec .sec s = .next { s with fC := true } ∧
    exec .cli s = .next { s with fI := false } ∧ exec .sei s = .next { s with fI := true } ∧
    exec .cld s = .next { s with fD := false } ∧ exec .sed s = .next { s with fD := true } ∧
    exec .clv s = .next { s with fV := false } ∧ exec .nop s = .next s

/-! ## Branches, jumps, linkage and exceptions (44_control.md) -/

/-- Each branch goes to the byte after it plus its signed displacement, modulo 65536, when its condition holds, else on; no
flag and nothing else changes (R311 to R319). -/
def Obligations.BranchResults : Prop :=
  (RowsOf .bpl [(0x10, .rel)] ∧ RowsOf .bmi [(0x30, .rel)] ∧ RowsOf .bvc [(0x50, .rel)] ∧ RowsOf .bvs [(0x70, .rel)] ∧
    RowsOf .bcc [(0x90, .rel)] ∧ RowsOf .bcs [(0xB0, .rel)] ∧ RowsOf .bne [(0xD0, .rel)] ∧ RowsOf .beq [(0xF0, .rel)] ∧
    RowsOf .bra [(0x80, .rel)]) ∧
  ∀ (s : State) (b : Byte),
    let dest := fun c : Bool =>
      if c then { s with pc := BitVec.ofInt 16 ((s.pc.toNat : Int) + b.toInt) } else s
    exec (.bpl b) s = .next (dest (!s.fN)) ∧ exec (.bmi b) s = .next (dest s.fN) ∧
    exec (.bvc b) s = .next (dest (!s.fV)) ∧ exec (.bvs b) s = .next (dest s.fV) ∧
    exec (.bcc b) s = .next (dest (!s.fC)) ∧ exec (.bcs b) s = .next (dest s.fC) ∧
    exec (.bne b) s = .next (dest (!s.fZ)) ∧ exec (.beq b) s = .next (dest s.fZ) ∧
    exec (.bra b) s = .next (dest true)

/-- JMP goes to its operand, or to the word at its operand, or to the word at its operand plus X, with no page quirk;
nothing else changes (R320, R183, R184; decision D8 of the spec). -/
def Obligations.JumpResults : Prop :=
  ∀ (s : State) (w : Word),
    exec (.jmpAbs w) s = .next { s with pc := w } ∧
    (∀ target t, memReadW .w16 w s = .ok (target, t) →
      exec (.jmpIabs w) s = .next { s with pc := target, events := t.events }) ∧
    (∀ target t, memReadW .w16 (w + s.x) s = .ok (target, t) →
      exec (.jmpIabsX w) s = .next { s with pc := target, events := t.events })

/-- JSR resolves its target, then pushes the address of its own last byte; RTS pulls an address and goes to the one after it
(R321, R322; decision D10 of the spec and its inference that the target comes first). -/
def Obligations.SubroutineResults : Prop :=
  ∀ (s : State) (w : Word),
    (∀ t, PushesWord (s.pc - 1) s t → exec (.jsrAbs w) s = .next { t with pc := w } ∧ PushFrame 2 s t) ∧
    (∀ target u t, memReadW .w16 (w + s.x) s = .ok (target, u) → PushesWord (s.pc - 1) u t →
      exec (.jsrIabsX w) s = .next { t with pc := target } ∧ PushFrame 2 s t) ∧
    (∀ v t, PullsWord v s t →
      exec .rts s = .next { t with pc := v + 1 } ∧ t = { s with sp := s.sp + 2, events := t.events })

/-- BRK enters the handler at BRKV with fB set and the address two past its opcode pushed; RTI restores the status byte
and goes to the address pulled; fD is cleared on entry where `P_INT_CLEARS_D` says so, and neither changes anything else,
the mode fE least of all (R323, R324, R44; decisions D10, D15, D16 and D20 of the spec). -/
def Obligations.SoftwareInterruptResults : Prop :=
  ∀ s : State,
    (∀ t, EntersInterrupt true (s.pc + 1) s.brkv s t → exec .brk s = .next t ∧
      t = { s with sp := s.sp - 3, fB := true, fI := true, fD := s.fD && !s.params.intClearsD, pc := s.brkv, mem := t.mem
                   events := t.events } ∧
      (Memory.wf s.mem = true → ∀ b : Word, (∀ k < 3, b ≠ s.params.dstackBase + zext (s.sp - BitVec.ofNat 8 k)) →
        Memory.read t.mem b.toNat = Memory.read s.mem b.toNat)) ∧
    (∀ p v u t, PullsByte p s u → PullsWord v u t →
      exec .rti s = .next { s.withStatus p with sp := s.sp + 3, pc := v, events := t.events })

/-- Where the data-stack window is RAM, RTS undoes JSR, RTI undoes BRK but for the signature byte it skips and the break
flag, and RTI undoes the entry of an interrupt but for the break flag: every other register and flag is as it was (R321 to
R324, R487, R489). -/
def Obligations.CallsAndInterruptsReturn : Prop :=
  ∀ s : State, s.ModeInv → Memory.wf s.mem = true → (∀ o : Byte, s.busTarget (s.params.dstackBase + zext o) = .ram) →
    (∀ w, ∃ t u, exec (.jsrAbs w) s = .next t ∧ exec .rts t = .next u ∧ t.pc = w ∧ u = { s with mem := u.mem }) ∧
    (∃ t u, exec .brk s = .next t ∧ exec .rti t = .next u ∧ t.pc = s.brkv ∧
      u = { s with pc := s.pc + 1, fB := true, mem := u.mem }) ∧
    (∀ vector, ∃ t u, takeInterrupt false s.pc vector s = .ok t ∧ exec .rti t = .next u ∧ t.pc = vector ∧
      u = { s with fB := false, mem := u.mem })

/-! ## The data stack (45_stack.md) -/

/-- The pushes put their value, at its width, on the data stack and change nothing else (R351, R353, R355, R357, R359, R361,
R362, R363; decision D10 of the spec). -/
def Obligations.DataPushResults : Prop :=
  ∀ (s t : State),
    (∀ (i : Instr) (w : Width) (v : Word),
      (i = .pha ∧ w = s.wM ∧ v = s.acc s.wM ∨ i = .phx ∧ w = s.wX ∧ v = s.x ∨ i = .phy ∧ w = s.wX ∧ v = s.y ∨
        i = .phd ∧ w = s.wM ∧ v = s.d ∨ i = .php ∧ w = .w8 ∧ IsStatusByte (loByte v) s ∨
        i = .pea v ∧ w = .w16 ∨ ∃ d, i = .per d ∧ w = .w16 ∧ v = s.pc + d) →
      Pushes w v s t → exec i s = .next t ∧ PushFrame w.bytes s t) ∧
    (∀ z v u, effAddr (.izp z) s = .ok (v, u) → Pushes .w16 v u t → exec (.pei z) s = .next t ∧ PushFrame 2 s t)

/-- The pulls take a value of their width from the data stack into their register, set N and Z from it, and change nothing
else; at width 8 the accumulator keeps its high byte and the high byte of X, Y and D becomes zero; PLP writes the status
byte (R352, R354, R356, R358, R360; decisions D10 and D39 of the spec). -/
def Obligations.DataPullResults : Prop :=
  ∀ (s t : State) (v : Word),
    (Pulls s.wM v s t → t = { s with sp := s.sp + BitVec.ofNat 8 s.wM.bytes, events := t.events } ∧
      exec .pla s = .next (if s.fM then t.accResult8 (loByte v) else t.accResult16 v) ∧
      exec .pld s = .next { t with d := v, fN := v.getLsbD (s.wM.bits - 1), fZ := decide (v = 0) }) ∧
    (Pulls s.wX v s t → t = { s with sp := s.sp + BitVec.ofNat 8 s.wX.bytes, events := t.events } ∧
      exec .plx s = .next (if s.fX then t.xResult8 (loByte v) else t.xResult16 v) ∧
      exec .ply s = .next (if s.fX then t.yResult8 (loByte v) else t.yResult16 v)) ∧
    (∀ p, PullsByte p s t → t = { s with sp := s.sp + 1, events := t.events } ∧ exec .plp s = .next (t.withStatus p))

/-- Where both stack windows are RAM, a pull on either stack undoes the push of the same register, at any stack pointer, but
for N and Z, and PLP undoes PHP (R350, R380, R351 to R358, R381 to R388). -/
def Obligations.PullUndoesPush : Prop :=
  ∀ s : State, s.ModeInv → Memory.wf s.mem = true →
    (∀ o : Byte, s.busTarget (s.params.dstackBase + zext o) = .ram ∧ s.busTarget (s.params.rstackBase + zext o) = .ram) →
    (∀ pair ∈ [(Instr.pha, Instr.pla), (.phx, .plx), (.phy, .ply), (.rha, .rla), (.rhx, .rlx), (.rhy, .rly), (.rhi, .rli)],
      ∃ t u, exec pair.1 s = .next t ∧ exec pair.2 t = .next u ∧ u = { s with fN := u.fN, fZ := u.fZ, mem := u.mem }) ∧
    (∃ t u, exec .php s = .next t ∧ exec .plp t = .next u ∧ u = { s with mem := u.mem })

/-! ## The auxiliary stack and threaded code (46_aux_stack.md) -/

/-- The pushes on the auxiliary stack put their value there, at its width, and change nothing else (R381, R383, R385, R387,
R396, R397, R398; decisions D10 and D24 of the spec). -/
def Obligations.AuxiliaryPushResults : Prop :=
  ∀ (s t : State),
    (∀ (i : Instr) (w : Width) (v : Word),
      (i = .rha ∧ w = s.wM ∧ v = s.acc s.wM ∨ i = .rhx ∧ w = s.wX ∧ v = s.x ∨ i = .rhy ∧ w = s.wX ∧ v = s.y ∨
        i = .rhi ∧ w = .w16 ∧ v = s.i ∨ i = .rea v ∧ w = .w16 ∨ ∃ d, i = .rer d ∧ w = .w16 ∧ v = s.pc + d) →
      RPushes w v s t → exec i s = .next t ∧ RPushFrame w.bytes s t) ∧
    (∀ z v u, effAddr (.izp z) s = .ok (v, u) → RPushes .w16 v u t → exec (.rei z) s = .next t ∧ RPushFrame 2 s t)

/-- The pulls from the auxiliary stack take a value of their width into their register, set N and Z from it, and change
nothing else; I is 16 bits in every mode (R382, R384, R386, R388; decisions D24 and D39 of the spec). -/
def Obligations.AuxiliaryPullResults : Prop :=
  ∀ (s t : State) (v : Word),
    (RPulls s.wM v s t → t = { s with r := s.r + BitVec.ofNat 8 s.wM.bytes, events := t.events } ∧
      exec .rla s = .next (if s.fM then t.accResult8 (loByte v) else t.accResult16 v)) ∧
    (RPulls s.wX v s t → t = { s with r := s.r + BitVec.ofNat 8 s.wX.bytes, events := t.events } ∧
      exec .rlx s = .next (if s.fX then t.xResult8 (loByte v) else t.xResult16 v) ∧
      exec .rly s = .next (if s.fX then t.yResult8 (loByte v) else t.yResult16 v)) ∧
    (RPulls .w16 v s t → t = { s with r := s.r + 2, events := t.events } ∧
      exec .rli s = .next { t with i := v, fN := v.msb, fZ := decide (v = 0) })

/-- Threaded code: ENT saves I on the auxiliary stack, points it past itself and jumps; NXT jumps to the word I points at
and steps I by two; NXA loads the accumulator through I, sets N and Z and steps I by its width; nothing else changes
(R393, R394, R395; decision D24 of the spec). -/
def Obligations.ThreadedCodeResults : Prop :=
  ∀ s : State,
    (∀ w t, RPushes .w16 s.i s t → exec (.ent w) s = .next { t with i := s.pc, pc := w } ∧ RPushFrame 2 s t) ∧
    (∀ v t, memReadW .w16 s.i s = .ok (v, t) → exec .nxt s = .next { s with pc := v, i := s.i + 2, events := t.events }) ∧
    (∀ v t, memReadW s.wM s.i s = .ok (v, t) →
      (s.fM = true → exec .nxa s = .next { s.accResult8 (loByte v) with i := s.i + 1, events := t.events }) ∧
      (s.fM = false → exec .nxa s = .next { s.accResult16 v with i := s.i + 2, events := t.events }))

/-! ## Mode switch (47_mode_switch.md) -/

/-- REP clears and SEP sets the status bits of their mask; in emulation mode the bits of the widths have no effect;
setting the index width cuts X and Y; nothing else changes (R410, R411; decisions D11 and D35 of the spec). -/
def Obligations.StatusMaskResults : Prop :=
  ∀ (s : State) (k : Byte),
    exec (.rep k) s = .next { s with
      fN := s.fN && !k.getLsbD 7, fV := s.fV && !k.getLsbD 6, fD := s.fD && !k.getLsbD 3, fI := s.fI && !k.getLsbD 2
      fZ := s.fZ && !k.getLsbD 1, fC := s.fC && !k.getLsbD 0
      fM := s.fM && (s.fE || !k.getLsbD 5), fX := s.fX && (s.fE || !k.getLsbD 4) } ∧
    exec (.sep k) s = .next { s with
      fN := s.fN || k.getLsbD 7, fV := s.fV || k.getLsbD 6, fD := s.fD || k.getLsbD 3, fI := s.fI || k.getLsbD 2
      fZ := s.fZ || k.getLsbD 1, fC := s.fC || k.getLsbD 0
      fM := s.fM || (!s.fE && k.getLsbD 5), fX := s.fX || (!s.fE && k.getLsbD 4)
      x := if !s.fE && k.getLsbD 4 then zext (loByte s.x) else s.x
      y := if !s.fE && k.getLsbD 4 then zext (loByte s.y) else s.y }

/-- XCE exchanges fC and fE, and entering emulation makes both widths 8 and cuts X and Y but leaves both accumulator bytes;
XBA exchanges the accumulator's bytes and sets N and Z from the new low one (R412, R413; decisions D34 and D40 of the spec,
90_conflicts.md C4). -/
def Obligations.ModeExchangeResults : Prop :=
  ∀ s : State,
    (s.fC = true → exec .xce s = .next
      { s with fC := s.fE, fE := true, fM := true, fX := true, x := zext (loByte s.x), y := zext (loByte s.y) }) ∧
    (s.fC = false → exec .xce s = .next { s with fC := s.fE, fE := false }) ∧
    exec .xba s = .next { s with al := s.ah, ah := s.al, fN := s.ah.msb, fZ := decide (s.ah = 0) }

/-- A width change never changes the accumulator, and only REP, SEP, PLP, RTI and XCE change a width or the mode; the two
round trips of the source give the accumulator back (R414). -/
def Obligations.WidthRoundTrip : Prop :=
  (∀ (i : Instr) (s t : State), exec i s = .next t → (t.fM ≠ s.fM ∨ t.fX ≠ s.fX ∨ t.fE ≠ s.fE) →
    (i.op = .rep ∨ i.op = .sep ∨ i.op = .plp ∨ i.op = .rti ∨ i.op = .xce) ∧ t.al = s.al ∧ t.ah = s.ah) ∧
  (∀ s : State, s.fE = false → s.fM = false →
    (∃ t, exec (.sep 0x20) s = .next t ∧ t.fM = true ∧ exec (.rep 0x20) t = .next s) ∧
    (∃ a b c d, exec .sec s = .next a ∧ exec .xce a = .next b ∧ b.fE = true ∧ exec .clc b = .next c ∧
      exec .xce c = .next d ∧ exec (.rep 0x20) d = .next
        { s with fC := true, fX := true, x := zext (loByte s.x), y := zext (loByte s.y) }))

/-! ## Multiply, divide and D (48_muldiv.md) -/

/-- MUL puts the 32-bit product of the whole accumulator and a 16-bit operand in `D:AH:AL`, signed where fC is
`P_MULDIV_SIGNED_WHEN_C`, with N its top bit and Z whether it is zero; nothing else changes (R430; decisions D22 and D46
of the spec). -/
def Obligations.MulResults : Prop :=
  ∀ (i : Instr) (mm : MemMode) (s : State) (m : Word) (t : State), i.op = .mul → i.operand = .mem mm →
    readSrc .w16 (.mem mm) s = .ok (m, t) →
    (s.fC ≠ s.params.muldivSignedWhenC → let p := (mkWord s.al s.ah).toNat * m.toNat
      exec i s = .next { s with
        al := BitVec.ofNat 8 p, ah := BitVec.ofNat 8 (p / 256), d := BitVec.ofNat 16 (p / 65536)
        fN := decide (2 ^ 31 ≤ p), fZ := decide (p = 0), events := t.events }) ∧
    (s.fC = s.params.muldivSignedWhenC → let p := (mkWord s.al s.ah).toInt * m.toInt
      exec i s = .next { s with
        al := BitVec.ofInt 8 p, ah := BitVec.ofInt 8 (p / 256), d := BitVec.ofInt 16 (p / 65536)
        fN := decide (p < 0), fZ := decide (p = 0), events := t.events })

/-- DIV divides `D:AH:AL` by a 16-bit operand: the quotient modulo 65536 goes to the accumulator with N and Z, the
remainder to D, fV is cleared; signed where fC is `P_MULDIV_SIGNED_WHEN_C`, rounding toward zero with the remainder's sign
the dividend's; division by zero sets fV and Z and leaves the accumulator and D at zero (R431; decisions D22 and D46 of
the spec). -/
def Obligations.DivResults : Prop :=
  ∀ (i : Instr) (mm : MemMode) (s : State) (m : Word) (t : State), i.op = .div → i.operand = .mem mm →
    readSrc .w16 (.mem mm) s = .ok (m, t) →
    (m = 0 → exec i s = .next { s with
      al := 0, ah := 0, d := 0, fV := true, fZ := true, fN := false, events := t.events }) ∧
    (m ≠ 0 → s.fC ≠ s.params.muldivSignedWhenC → let n := s.d.toNat * 65536 + (mkWord s.al s.ah).toNat
      let q : Word := BitVec.ofNat 16 (n / m.toNat)
      exec i s = .next { s with
        al := loByte q, ah := hiByte q, d := BitVec.ofNat 16 (n % m.toNat)
        fV := false, fN := q.msb, fZ := decide (q = 0), events := t.events }) ∧
    (m ≠ 0 → s.fC = s.params.muldivSignedWhenC → ∀ q r : Int,
      s.d.toInt * 65536 + ((mkWord s.al s.ah).toNat : Int) = q * m.toInt + r → r.natAbs < m.toInt.natAbs →
      (s.d.msb = false → 0 ≤ r) → (s.d.msb = true → r ≤ 0) →
      let q : Word := BitVec.ofInt 16 q
      exec i s = .next { s with
        al := loByte q, ah := hiByte q, d := BitVec.ofInt 16 r
        fV := false, fN := q.msb, fZ := decide (q = 0), events := t.events })

/-- ZEA, SEA, TAD and TDA move between the accumulator and D: zero or the accumulator's sign into D, the accumulator at
its width into D without flags, D at the accumulator's width out with N and Z (R432, R433, R434, R435; decisions D12, D23
and D44 of the spec). -/
def Obligations.WideRegisterResults : Prop :=
  ∀ s : State,
    exec .zea s = .next { s with d := 0 } ∧
    exec .sea s = .next { s with d := if (if s.fM then s.al.msb else s.ah.msb) then 0xFFFF else 0x0000 } ∧
    exec .tad s = .next { s with d := if s.fM then zext s.al else mkWord s.al s.ah } ∧
    exec .tda s = .next (if s.fM then s.accResult8 (loByte s.d) else s.accResult16 s.d)

/-! ## STP, WAI, MMU and the illegal opcode (49_system.md) -/

/-- STP, WAI and the illegal opcode write one signal each and nothing else (R450, R451, R454, R480; decision D2 of the
spec). -/
def Obligations.SignalResults : Prop :=
  ∀ s : State,
    exec .stp s = .next { s with halted := true } ∧
    exec .wai s = .next { s with waiting := true } ∧
    exec .illegal s = .next { s with trap := true }

/-- The selectors of the MMU opcode, each with its effect and no other, and every other selector with none; a set writes
the accumulator at its width, a get writes the accumulator at its width and no flag (R45, R452, R453; decisions D25 and
D45 of the spec; 90_conflicts.md C5; log entry 17). -/
def Obligations.MmuResults : Prop :=
  ∀ s : State,
    let value : Word := if s.fM then zext s.al else mkWord s.al s.ah
    let get := fun v : Word => if s.fM then { s with al := loByte v } else { s with al := loByte v, ah := hiByte v }
    (exec (.mmu 0x00) s = .next { s with rbSlot := s.al } ∧ exec (.mmu 0x80) s = .next (get (zext s.rbSlot))) ∧
    (exec (.mmu 0x01) s = .next { s with rbWindow := value } ∧ exec (.mmu 0x81) s = .next (get s.rbWindow)) ∧
    (exec (.mmu 0x02) s = .next { s with rbEnabled := true } ∧ exec (.mmu 0x82) s = .next { s with rbEnabled := false }) ∧
    (exec (.mmu 0x03) s = .next { s with rbAuxWin := value } ∧ exec (.mmu 0x83) s = .next (get s.rbAuxWin)) ∧
    (exec (.mmu 0x04) s = .next { s with rbAuxEn := true } ∧ exec (.mmu 0x84) s = .next { s with rbAuxEn := false }) ∧
    (exec (.mmu 0x05) s = .next { s with brkv := value } ∧ exec (.mmu 0x85) s = .next (get s.brkv)) ∧
    (exec (.mmu 0x06) s = .next { s with por := value } ∧ exec (.mmu 0x86) s = .next (get s.por)) ∧
    exec (.mmu 0xFF) s =
      .next (if s.logInstalled then { s with events := .log s.wM value :: s.events } else s) ∧
    ∀ k : Byte, 6 < k.toNat → k.toNat < 0x80 ∨ 0x86 < k.toNat → k ≠ 0xFF → exec (.mmu k) s = .next s

/-! ## The machine (30_encoding.md R140, 60_exceptions.md, 70_reset_and_hazards.md) -/

/-- A step runs the decoded instruction: where no interrupt is taken and RAM holds at PC bytes that decode to an
instruction, a step of an enabled machine is that instruction's `exec` at the state with the trap cleared and PC past the
bytes, then the count of the step and the end of the machine step (R140, R142, R490). -/
def Obligations.StepRunsDecodedInstruction : Prop :=
  ∀ (s : State) (bytes : List Byte) (i : Instr),
    s.Enabled → s.waiting = false → s.nmi = false → (s.irq = false ∨ s.fI = true) →
    decodeIn s.params.illegalOpcodes s.wM s.wX bytes = .ok (i, []) →
    (∀ (k : Nat) (h : k < bytes.length), s.busTarget (s.pc + BitVec.ofNat 16 k) = .ram ∧
      Memory.read s.mem (s.pc + BitVec.ofNat 16 k).toNat = bytes[k]) →
    step s = match exec i { s with trap := false, pc := s.pc + BitVec.ofNat 16 bytes.length } with
      | .next u => .next (endStep u.countStep)
      | .fault f => .fault f
      | .refused r => .refused r

/-- An interrupt is entered in the step of the instruction after it: NMI before IRQ, IRQ only while fI is clear, at most
one, and the pending bit taken is cleared, and PC goes to the vector of the platform, `BRKV` in this spec; the step is
then the step of the state in which the handler begins (R8, R484, R485, R487, R503; decisions D15, D16 and D17 of the
spec; log entry 32). -/
def Obligations.InterruptIsEnteredBeforeTheFetch : Prop :=
  ∀ s t : State, s.Enabled → s.waiting = false →
    (s.nmi = true → let u := { s with trap := false, nmi := false }
      EntersInterrupt false s.pc (nmiVector u) u t →
      step s = step t ∧ t.nmi = false ∧ t.irq = s.irq ∧ t.fI = true ∧ t.pc = nmiVector u ∧
        (s.params.nmiVector = .brkv → t.pc = s.brkv) ∧ ∀ a, s.params.nmiVector = .constant a → t.pc = a) ∧
    (s.nmi = false → s.irq = true → s.fI = false → let u := { s with trap := false, irq := false }
      EntersInterrupt false s.pc (irqVector u) u t →
      step s = step t ∧ t.nmi = false ∧ t.irq = false ∧ t.fI = true ∧ t.pc = irqVector u ∧
        (s.params.irqVector = .brkv → t.pc = s.brkv) ∧ ∀ a, s.params.irqVector = .constant a → t.pc = a)

/-- The end of a machine step: the tick of the active peripheral, if there is one, whatever `rb_enabled` is; then the end
of the run loop if the core is halted, else the release of a wait if there is a token (R94, R490, R492, R494; decisions
D27 and D43 of the spec; log entries 9, 12 and 26). -/
def Obligations.MachineStepEnds : Prop :=
  ∀ s : State,
    (s.activePeripheral = none → redBusTick s = s) ∧
    (∀ p, s.activePeripheral = some p → let e := HostEvent.peripheralTick p :: s.events
      redBusTick s = { s with events := e, tokens := min (s.tokens + Config.tickSignals e) 2 }) ∧
    (let t := redBusTick s
     (t.halted = true → endStep s = { t with running := false }) ∧
     (t.halted = false → t.waiting = true → 0 < t.tokens →
      endStep s = { t with tokens := t.tokens - 1, waiting := false, irq := true }) ∧
     (t.halted = false → t.waiting = false ∨ t.tokens = 0 → endStep s = t))

/-- A halted core, a run loop that is not running and a wait without a token take no step, each by its own name, and a
wait with a token is released before the step (R490, R492, R494; decision D18 of the spec; log entries 11, 13 and 29 say
what the model answers, in which order). -/
def Obligations.BlockedMachineTakesNoStep : Prop :=
  ∀ s : State,
    (distinctStarts s.devices = false → step s = .refused .ambiguousDeviceMap) ∧
    (distinctStarts s.devices = true →
      (s.halted = true → step s = .fault .halted) ∧
      (s.halted = false → s.running = false → step s = .fault .notRunning) ∧
      (s.halted = false → s.running = true → s.waiting = true →
        (s.tokens = 0 → step s = .fault .waitBlocked) ∧
        (0 < s.tokens → step s = step { s with tokens := s.tokens - 1, waiting := false, irq := true })))

/-- Reset gives every register, flag and core signal its value and leaves the vectors, memory, the RedBus configuration,
the bindings, the wake tokens and the platform as they are (R530, R531, R532; decision D13 of the spec; log entries 22 and
34). -/
def Obligations.ResetValues : Prop :=
  ∀ s : State, let t := s.resetCore
    (t.al = 0 ∧ t.ah = 0 ∧ t.x = 0 ∧ t.y = 0 ∧ t.i = 0 ∧ t.d = 0 ∧ t.sp = 0xFF ∧ t.r = 0xFF ∧ t.pc = s.por) ∧
    (t.fC = false ∧ t.fZ = false ∧ t.fD = false ∧ t.fV = false ∧ t.fN = false ∧ t.fB = false ∧ t.fI = true ∧
      t.fE = true ∧ t.fM = true ∧ t.fX = true) ∧
    (t.trap = false ∧ t.irq = false ∧ t.nmi = false ∧ t.waiting = false ∧ t.halted = false ∧ t.steps = 0) ∧
    (t.por = s.por ∧ t.brkv = s.brkv ∧ t.mem = s.mem ∧ t.devices = s.devices ∧ t.rbEnabled = s.rbEnabled ∧
      t.rbSlot = s.rbSlot ∧ t.rbWindow = s.rbWindow ∧ t.rbAuxWin = s.rbAuxWin ∧ t.rbAuxEn = s.rbAuxEn ∧
      t.rbBind = s.rbBind ∧ t.tokens = s.tokens ∧ t.running = s.running ∧ t.logInstalled = s.logInstalled ∧
      t.events = s.events ∧ t.params = s.params ∧ t.wasReset = true)

/-- Construction gives every parameter of the platform its place and leaves the run loop stopped; `run()` is then refused
until a reset, and construction, reset and `run()` make the machine the platform launches; State.reset has this spec's
parameters (R8, R531, R533; decisions D2, D5, D15, D16, D42 and D46 of the spec; 93_implementation_defined.md S1). -/
def Obligations.ConstructionThenResetThenRun : Prop :=
  (∀ p : Platform, let c := p.construct
    (c.params = p.params ∧ c.por = p.porInit ∧ c.brkv = p.brkInit ∧ c.tokens = p.wakeTokensInit ∧ c.devices = p.devices ∧
      c.mem = p.ram ∧ c.rbBind = p.bindings ∧ c.rbEnabled = p.redBusInit.enabled ∧ c.rbSlot = p.redBusInit.slot ∧
      c.rbWindow = p.redBusInit.window ∧ c.rbAuxWin = p.redBusInit.auxwin ∧ c.rbAuxEn = p.redBusInit.auxen) ∧
    c.running = false ∧ hostMove .run c = none ∧ hostMove .reset c = some c.resetCore ∧
    hostMove .run c.resetCore = some p.launch) ∧
  State.reset.params = ⟨0x0100, 0x0200, .brkv, .brkv, false, [0xFF], true⟩ ∧ State.reset.params.Admitted ∧
  (State.reset.rbEnabled = false ∧ State.reset.rbSlot = 0 ∧ State.reset.rbWindow = 0x0000 ∧ State.reset.rbAuxWin = 0x0000 ∧
    State.reset.rbAuxEn = false)

/-- The moves of the host: the lines latch, `signal()` saturates at two tokens, `stop()` fills them and changes no core
register, `reset()`, `run()` and the installation of a peripheral want the run loop stopped, `run()` wants a reset before
the first, and whatever the machine is doing, `stop()` then reset then `run()` leaves a machine that takes a step (R486,
R491, R493, R504, R533; log entries 15, 30 and 31). -/
def Obligations.HostMovesAreAsListed : Prop :=
  ∀ s : State,
    hostMove .assertIrq s = some { s with irq := true } ∧ hostMove .assertNmi s = some { s with nmi := true } ∧
    hostMove .signal s = some { s with tokens := min (s.tokens + 1) 2 } ∧
    hostMove .stop s = some { s with running := false, tokens := 2 } ∧
    (s.running = true → hostMove .reset s = none ∧ hostMove .run s = none ∧
      ∀ slot p, hostMove (.install slot p) s = none) ∧
    (s.running = false → hostMove .reset s = some s.resetCore ∧
      (s.wasReset = true → hostMove .run s = some { s with running := true }) ∧
      (s.wasReset = false → hostMove .run s = none) ∧
      ∀ slot p, ∃ t, hostMove (.install slot p) s = some t ∧ t = { s with rbBind := t.rbBind } ∧
        ∀ k : Byte, t.rbBind[k.toNat]'(k.isLt) = if k = slot then some p else s.rbBind[k.toNat]'(k.isLt)) ∧
    (distinctStarts s.devices = true → ∃ a b c, hostMove .stop s = some a ∧ hostMove .reset a = some b ∧
      hostMove .run b = some c ∧ c.Enabled ∧ c.tokens = 2 ∧ c.pc = s.por)

/-- A step that answers counts one core step, and leaves the trap set exactly if the instruction it ran is the illegal
opcode (R481, R498; decisions D29 and D30 of the spec). -/
def Obligations.StepCountsAndTraps : Prop :=
  ∀ s t : State, step s = .next t →
    t.steps = s.steps + 1 ∧
    (t.trap = true ↔ ∃ u, beginStep (if s.waiting then wakeRelease s else s) = .ok (.illegal, u))

/-- No instruction writes a register, flag or signal but those whose rule says so: the table of who writes the mode, the
pointer registers, the vectors, the RedBus configuration and the signals; the lines, the counters, the bindings and the
platform no instruction writes (R33 to R38, R40, R45, R46, R47, R95). -/
def Obligations.OnlyNamedInstructionsWrite : Prop :=
  ∀ (i : Instr) (s t : State), exec i s = .next t →
    (t.fE ≠ s.fE → i = .xce) ∧
    (t.fB ≠ s.fB → i = .brk ∨ i = .plp ∨ i = .rti) ∧
    (t.fD ≠ s.fD → i.op ∈ [Op.sed, .cld, .rep, .sep, .plp, .rti] ∨ i = .brk ∧ s.params.intClearsD = true) ∧
    (t.fI ≠ s.fI → i.op ∈ [Op.sei, .cli, .rep, .sep, .plp, .rti, .brk]) ∧
    (t.fV ≠ s.fV → i.op ∈ [Op.adc, .sbc, .bit, .clv, .div, .rep, .sep, .plp, .rti]) ∧
    (t.fC ≠ s.fC → i.op ∈ [Op.adc, .sbc, .cmp, .cpx, .cpy, .asl, .lsr, .rol, .ror, .clc, .sec, .xce, .rep, .sep, .plp, .rti]) ∧
    (t.sp ≠ s.sp → i.op ∈ [Op.pha, .pla, .phx, .plx, .phy, .ply, .php, .plp, .phd, .pld, .pea, .pei, .per,
      .jsr, .rts, .rti, .brk, .txs]) ∧
    (t.r ≠ s.r → i.op ∈ [Op.rha, .rla, .rhx, .rlx, .rhy, .rly, .rhi, .rli, .rea, .rei, .rer, .ent, .txr]) ∧
    (t.i ≠ s.i → i.op ∈ [Op.txi, .rli, .ent, .nxt, .nxa]) ∧
    (t.d ≠ s.d → i.op ∈ [Op.mul, .div, .pld, .zea, .sea, .tad]) ∧
    (t.por ≠ s.por → i = .mmu 0x06) ∧ (t.brkv ≠ s.brkv → i = .mmu 0x05) ∧
    (t.rbSlot ≠ s.rbSlot → i = .mmu 0x00) ∧ (t.rbWindow ≠ s.rbWindow → i = .mmu 0x01) ∧
    (t.rbEnabled ≠ s.rbEnabled → i = .mmu 0x02 ∨ i = .mmu 0x82) ∧
    (t.rbAuxWin ≠ s.rbAuxWin → i = .mmu 0x03) ∧ (t.rbAuxEn ≠ s.rbAuxEn → i = .mmu 0x04 ∨ i = .mmu 0x84) ∧
    (t.trap ≠ s.trap → i = .illegal) ∧ (t.waiting ≠ s.waiting → i = .wai) ∧ (t.halted ≠ s.halted → i = .stp) ∧
    (t.irq = s.irq ∧ t.nmi = s.nmi ∧ t.steps = s.steps ∧ t.tokens = s.tokens ∧ t.rbBind = s.rbBind ∧
      t.running = s.running ∧ t.logInstalled = s.logInstalled ∧ t.devices = s.devices ∧ t.params = s.params ∧
      t.wasReset = s.wasReset)

/-- Every instruction completes on a platform whose devices cover the address space, whatever its operands and the mode,
and elsewhere the one way not to complete is an access at an address that nothing covers; no instruction is refused (R16,
R82, R88, R482, R496, R534). -/
def Obligations.EveryInstructionCompletes : Prop :=
  ∀ (i : Instr) (s : State),
    (s.DevicesCover → ∃ t, exec i s = .next t) ∧
    (∀ f, exec i s = .fault f → ∃ a, f = .busUnmapped a ∧ s.busTarget a = .unmapped) ∧
    (∀ r, exec i s ≠ .refused r)

/-- On a platform whose devices cover the address space, every enabled step answers a next state, on the same platform
(R490, R534). -/
def Obligations.EnabledStepAnswers : Prop :=
  ∀ s : State, s.DevicesCover → s.Enabled → ∃ t, step s = .next t ∧ t.DevicesCover ∧ distinctStarts t.devices = true

/-- The machine's invariant: in emulation mode both widths are 8, at index width 8 the high bytes of X and Y are zero, the
wake tokens are at most two, the run loop runs only after a reset, the parameters are admitted, and memory is in its
canonical form; every step and every move of the host that answers keeps it, and the parameters (R8, R41, R42, R491, R533;
decision D11 of the spec; the canonical form is the model's own, log entry 7). -/
def Obligations.StepKeepsInvariant : Prop :=
  (∀ s t : State, s.Inv → step s = .next t → t.Inv ∧ t.params = s.params) ∧
  (∀ (m : HostMove) (s t : State), s.Inv → hostMove m s = some t → t.Inv ∧ t.params = s.params)

/-- The state after reset meets the invariant and is enabled, and its devices cover the address space; so does what any
admitted platform launches, but for the cover (R530, R533; the values of State.reset that the spec leaves open are the
model's, log entries 1 to 6, 10 and 17). -/
def Obligations.ResetMeetsInvariant : Prop :=
  State.reset.Inv ∧ State.reset.Enabled ∧ State.reset.DevicesCover ∧
  ∀ p : Platform, p.Admitted → p.launch.Inv ∧ p.launch.Enabled ∧ p.launch.pc = p.porInit
end

