-- ==== Sys2Proof/Laws/PerInstr.lean ====
section
/-! SUPPORT. Statements about every instruction as syntax, one lemma a constructor: the decoder reads what the encoder
writes. -/

namespace Sys2Proof

theorem mkWord_loByte_hiByte (w : Word) : mkWord (loByte w) (hiByte w) = w := by
  unfold mkWord loByte hiByte
  ext i hi
  simp only [BitVec.getElem_append, BitVec.getElem_setWidth, BitVec.getLsbD_ushiftRight]
  split
  · simp [BitVec.getLsbD_eq_getElem hi]
  · rw [show 8 + (i - 8) = i by omega, BitVec.getLsbD_eq_getElem hi]

theorem zext_loByte_of_fits (v : Word) (h : Width.w8.fits v = true) : zext (loByte v) = v := by
  have h : v.toNat < 2 ^ 8 := of_decide_eq_true h
  apply BitVec.eq_of_toNat_eq
  simp only [zext, loByte, BitVec.toNat_setWidth]
  omega

/-- An encoding has the length of the instruction (30_encoding.md R133). -/
theorem encode_length (wM wX : Width) (i : Instr) : (encode wM wX i).length = i.length wM wX := by
  have h : ∀ o : Operand, (encodeOperand wM wX o).length = o.operandBytes wM wX := by
    intro o
    cases o with
    | mem m => cases m <;> rfl
    | immM v => cases wM <;> rfl
    | immX v => cases wX <;> rfl
    | _ => rfl
  simp [encode, Instr.length, h, Nat.add_comm]

/-- The value a variable-width immediate is decoded to from the bytes it is encoded in. -/
theorem immOf_encodeImm (w : Width) (v : Word) (h : w.fits v = true) : immOf w (loByte v) (hiByte v) = v := by
  cases w
  · exact zext_loByte_of_fits v h
  · exact mkWord_loByte_hiByte v

namespace Laws

/-- An instruction is decoded from its own encoding, at every pair of widths its immediate fits. -/
def RoundTrip.Statement (i : Instr) : Prop :=
  ∀ wM wX : Width, i.wf wM wX = true → decode wM wX (encode wM wX i) = .ok (i, [])

theorem RoundTrip.brk : RoundTrip.Statement .brk := fun wM wX _ =>
  (rfl : decode wM wX [0x00] = .ok (.brk, []))
theorem RoundTrip.oraIzpX (z : Byte) : RoundTrip.Statement (.oraIzpX z) := fun wM wX _ =>
  (rfl : decode wM wX [0x01, z] = .ok (.oraIzpX z, []))
theorem RoundTrip.nxt : RoundTrip.Statement .nxt := fun wM wX _ =>
  (rfl : decode wM wX [0x02] = .ok (.nxt, []))
theorem RoundTrip.oraSr (o : Byte) : RoundTrip.Statement (.oraSr o) := fun wM wX _ =>
  (rfl : decode wM wX [0x03, o] = .ok (.oraSr o, []))
theorem RoundTrip.tsbZp (z : Byte) : RoundTrip.Statement (.tsbZp z) := fun wM wX _ =>
  (rfl : decode wM wX [0x04, z] = .ok (.tsbZp z, []))
theorem RoundTrip.oraZp (z : Byte) : RoundTrip.Statement (.oraZp z) := fun wM wX _ =>
  (rfl : decode wM wX [0x05, z] = .ok (.oraZp z, []))
theorem RoundTrip.aslZp (z : Byte) : RoundTrip.Statement (.aslZp z) := fun wM wX _ =>
  (rfl : decode wM wX [0x06, z] = .ok (.aslZp z, []))
theorem RoundTrip.oraRr (o : Byte) : RoundTrip.Statement (.oraRr o) := fun wM wX _ =>
  (rfl : decode wM wX [0x07, o] = .ok (.oraRr o, []))
theorem RoundTrip.php : RoundTrip.Statement .php := fun wM wX _ =>
  (rfl : decode wM wX [0x08] = .ok (.php, []))
theorem RoundTrip.oraImmM (v : Word) : RoundTrip.Statement (.oraImmM v) := fun wM wX h => by
  cases wM
  · exact (rfl : decode _ _ [0x09, loByte v] = .ok (.oraImmM (immOf .w8 (loByte v) 0), [])).trans
      (congrArg (fun u => Except.ok (Instr.oraImmM u, [])) (immOf_encodeImm .w8 v h))
  · exact (rfl : decode _ _ [0x09, loByte v, hiByte v] = .ok (.oraImmM (immOf .w16 (loByte v) (hiByte v)), [])).trans
      (congrArg (fun u => Except.ok (Instr.oraImmM u, [])) (immOf_encodeImm .w16 v h))
theorem RoundTrip.aslAcc : RoundTrip.Statement .aslAcc := fun wM wX _ =>
  (rfl : decode wM wX [0x0A] = .ok (.aslAcc, []))
theorem RoundTrip.rhi : RoundTrip.Statement .rhi := fun wM wX _ =>
  (rfl : decode wM wX [0x0B] = .ok (.rhi, []))
theorem RoundTrip.tsbAbs (w : Word) : RoundTrip.Statement (.tsbAbs w) := fun wM wX _ =>
  (rfl : decode wM wX [0x0C, loByte w, hiByte w] = .ok (.tsbAbs (mkWord (loByte w) (hiByte w)), [])).trans
    (congrArg (fun u => Except.ok (Instr.tsbAbs u, [])) (mkWord_loByte_hiByte w))
theorem RoundTrip.oraAbs (w : Word) : RoundTrip.Statement (.oraAbs w) := fun wM wX _ =>
  (rfl : decode wM wX [0x0D, loByte w, hiByte w] = .ok (.oraAbs (mkWord (loByte w) (hiByte w)), [])).trans
    (congrArg (fun u => Except.ok (Instr.oraAbs u, [])) (mkWord_loByte_hiByte w))
theorem RoundTrip.aslAbs (w : Word) : RoundTrip.Statement (.aslAbs w) := fun wM wX _ =>
  (rfl : decode wM wX [0x0E, loByte w, hiByte w] = .ok (.aslAbs (mkWord (loByte w) (hiByte w)), [])).trans
    (congrArg (fun u => Except.ok (Instr.aslAbs u, [])) (mkWord_loByte_hiByte w))
theorem RoundTrip.mulZp (z : Byte) : RoundTrip.Statement (.mulZp z) := fun wM wX _ =>
  (rfl : decode wM wX [0x0F, z] = .ok (.mulZp z, []))
theorem RoundTrip.bpl (b : Byte) : RoundTrip.Statement (.bpl b) := fun wM wX _ =>
  (rfl : decode wM wX [0x10, b] = .ok (.bpl b, []))
theorem RoundTrip.oraIzpY (z : Byte) : RoundTrip.Statement (.oraIzpY z) := fun wM wX _ =>
  (rfl : decode wM wX [0x11, z] = .ok (.oraIzpY z, []))
theorem RoundTrip.oraIzp (z : Byte) : RoundTrip.Statement (.oraIzp z) := fun wM wX _ =>
  (rfl : decode wM wX [0x12, z] = .ok (.oraIzp z, []))
theorem RoundTrip.oraIsrY (o : Byte) : RoundTrip.Statement (.oraIsrY o) := fun wM wX _ =>
  (rfl : decode wM wX [0x13, o] = .ok (.oraIsrY o, []))
theorem RoundTrip.trbZp (z : Byte) : RoundTrip.Statement (.trbZp z) := fun wM wX _ =>
  (rfl : decode wM wX [0x14, z] = .ok (.trbZp z, []))
theorem RoundTrip.oraZpX (z : Byte) : RoundTrip.Statement (.oraZpX z) := fun wM wX _ =>
  (rfl : decode wM wX [0x15, z] = .ok (.oraZpX z, []))
theorem RoundTrip.aslZpX (z : Byte) : RoundTrip.Statement (.aslZpX z) := fun wM wX _ =>
  (rfl : decode wM wX [0x16, z] = .ok (.aslZpX z, []))
theorem RoundTrip.oraIrrY (o : Byte) : RoundTrip.Statement (.oraIrrY o) := fun wM wX _ =>
  (rfl : decode wM wX [0x17, o] = .ok (.oraIrrY o, []))
theorem RoundTrip.clc : RoundTrip.Statement .clc := fun wM wX _ =>
  (rfl : decode wM wX [0x18] = .ok (.clc, []))
theorem RoundTrip.oraAbsY (w : Word) : RoundTrip.Statement (.oraAbsY w) := fun wM wX _ =>
  (rfl : decode wM wX [0x19, loByte w, hiByte w] = .ok (.oraAbsY (mkWord (loByte w) (hiByte w)), [])).trans
    (congrArg (fun u => Except.ok (Instr.oraAbsY u, [])) (mkWord_loByte_hiByte w))
theorem RoundTrip.incAcc : RoundTrip.Statement .incAcc := fun wM wX _ =>
  (rfl : decode wM wX [0x1A] = .ok (.incAcc, []))
theorem RoundTrip.rhx : RoundTrip.Statement .rhx := fun wM wX _ =>
  (rfl : decode wM wX [0x1B] = .ok (.rhx, []))
theorem RoundTrip.trbAbs (w : Word) : RoundTrip.Statement (.trbAbs w) := fun wM wX _ =>
  (rfl : decode wM wX [0x1C, loByte w, hiByte w] = .ok (.trbAbs (mkWord (loByte w) (hiByte w)), [])).trans
    (congrArg (fun u => Except.ok (Instr.trbAbs u, [])) (mkWord_loByte_hiByte w))
theorem RoundTrip.oraAbsX (w : Word) : RoundTrip.Statement (.oraAbsX w) := fun wM wX _ =>
  (rfl : decode wM wX [0x1D, loByte w, hiByte w] = .ok (.oraAbsX (mkWord (loByte w) (hiByte w)), [])).trans
    (congrArg (fun u => Except.ok (Instr.oraAbsX u, [])) (mkWord_loByte_hiByte w))
theorem RoundTrip.aslAbsX (w : Word) : RoundTrip.Statement (.aslAbsX w) := fun wM wX _ =>
  (rfl : decode wM wX [0x1E, loByte w, hiByte w] = .ok (.aslAbsX (mkWord (loByte w) (hiByte w)), [])).trans
    (congrArg (fun u => Except.ok (Instr.aslAbsX u, [])) (mkWord_loByte_hiByte w))
theorem RoundTrip.mulZpX (z : Byte) : RoundTrip.Statement (.mulZpX z) := fun wM wX _ =>
  (rfl : decode wM wX [0x1F, z] = .ok (.mulZpX z, []))
theorem RoundTrip.jsrAbs (w : Word) : RoundTrip.Statement (.jsrAbs w) := fun wM wX _ =>
  (rfl : decode wM wX [0x20, loByte w, hiByte w] = .ok (.jsrAbs (mkWord (loByte w) (hiByte w)), [])).trans
    (congrArg (fun u => Except.ok (Instr.jsrAbs u, [])) (mkWord_loByte_hiByte w))
theorem RoundTrip.andIzpX (z : Byte) : RoundTrip.Statement (.andIzpX z) := fun wM wX _ =>
  (rfl : decode wM wX [0x21, z] = .ok (.andIzpX z, []))
theorem RoundTrip.ent (w : Word) : RoundTrip.Statement (.ent w) := fun wM wX _ =>
  (rfl : decode wM wX [0x22, loByte w, hiByte w] = .ok (.ent (mkWord (loByte w) (hiByte w)), [])).trans
    (congrArg (fun u => Except.ok (Instr.ent u, [])) (mkWord_loByte_hiByte w))
theorem RoundTrip.andSr (o : Byte) : RoundTrip.Statement (.andSr o) := fun wM wX _ =>
  (rfl : decode wM wX [0x23, o] = .ok (.andSr o, []))
theorem RoundTrip.bitZp (z : Byte) : RoundTrip.Statement (.bitZp z) := fun wM wX _ =>
  (rfl : decode wM wX [0x24, z] = .ok (.bitZp z, []))
theorem RoundTrip.andZp (z : Byte) : RoundTrip.Statement (.andZp z) := fun wM wX _ =>
  (rfl : decode wM wX [0x25, z] = .ok (.andZp z, []))
theorem RoundTrip.rolZp (z : Byte) : RoundTrip.Statement (.rolZp z) := fun wM wX _ =>
  (rfl : decode wM wX [0x26, z] = .ok (.rolZp z, []))
theorem RoundTrip.andRr (o : Byte) : RoundTrip.Statement (.andRr o) := fun wM wX _ =>
  (rfl : decode wM wX [0x27, o] = .ok (.andRr o, []))
theorem RoundTrip.plp : RoundTrip.Statement .plp := fun wM wX _ =>
  (rfl : decode wM wX [0x28] = .ok (.plp, []))
theorem RoundTrip.andImmM (v : Word) : RoundTrip.Statement (.andImmM v) := fun wM wX h => by
  cases wM
  · exact (rfl : decode _ _ [0x29, loByte v] = .ok (.andImmM (immOf .w8 (loByte v) 0), [])).trans
      (congrArg (fun u => Except.ok (Instr.andImmM u, [])) (immOf_encodeImm .w8 v h))
  · exact (rfl : decode _ _ [0x29, loByte v, hiByte v] = .ok (.andImmM (immOf .w16 (loByte v) (hiByte v)), [])).trans
      (congrArg (fun u => Except.ok (Instr.andImmM u, [])) (immOf_encodeImm .w16 v h))
theorem RoundTrip.rolAcc : RoundTrip.Statement .rolAcc := fun wM wX _ =>
  (rfl : decode wM wX [0x2A] = .ok (.rolAcc, []))
theorem RoundTrip.rli : RoundTrip.Statement .rli := fun wM wX _ =>
  (rfl : decode wM wX [0x2B] = .ok (.rli, []))
theorem RoundTrip.bitAbs (w : Word) : RoundTrip.Statement (.bitAbs w) := fun wM wX _ =>
  (rfl : decode wM wX [0x2C, loByte w, hiByte w] = .ok (.bitAbs (mkWord (loByte w) (hiByte w)), [])).trans
    (congrArg (fun u => Except.ok (Instr.bitAbs u, [])) (mkWord_loByte_hiByte w))
theorem RoundTrip.andAbs (w : Word) : RoundTrip.Statement (.andAbs w) := fun wM wX _ =>
  (rfl : decode wM wX [0x2D, loByte w, hiByte w] = .ok (.andAbs (mkWord (loByte w) (hiByte w)), [])).trans
    (congrArg (fun u => Except.ok (Instr.andAbs u, [])) (mkWord_loByte_hiByte w))
theorem RoundTrip.rolAbs (w : Word) : RoundTrip.Statement (.rolAbs w) := fun wM wX _ =>
  (rfl : decode wM wX [0x2E, loByte w, hiByte w] = .ok (.rolAbs (mkWord (loByte w) (hiByte w)), [])).trans
    (congrArg (fun u => Except.ok (Instr.rolAbs u, [])) (mkWord_loByte_hiByte w))
theorem RoundTrip.mulAbs (w : Word) : RoundTrip.Statement (.mulAbs w) := fun wM wX _ =>
  (rfl : decode wM wX [0x2F, loByte w, hiByte w] = .ok (.mulAbs (mkWord (loByte w) (hiByte w)), [])).trans
    (congrArg (fun u => Except.ok (Instr.mulAbs u, [])) (mkWord_loByte_hiByte w))
theorem RoundTrip.bmi (b : Byte) : RoundTrip.Statement (.bmi b) := fun wM wX _ =>
  (rfl : decode wM wX [0x30, b] = .ok (.bmi b, []))
theorem RoundTrip.andIzpY (z : Byte) : RoundTrip.Statement (.andIzpY z) := fun wM wX _ =>
  (rfl : decode wM wX [0x31, z] = .ok (.andIzpY z, []))
theorem RoundTrip.andIzp (z : Byte) : RoundTrip.Statement (.andIzp z) := fun wM wX _ =>
  (rfl : decode wM wX [0x32, z] = .ok (.andIzp z, []))
theorem RoundTrip.andIsrY (o : Byte) : RoundTrip.Statement (.andIsrY o) := fun wM wX _ =>
  (rfl : decode wM wX [0x33, o] = .ok (.andIsrY o, []))
theorem RoundTrip.bitZpX (z : Byte) : RoundTrip.Statement (.bitZpX z) := fun wM wX _ =>
  (rfl : decode wM wX [0x34, z] = .ok (.bitZpX z, []))
theorem RoundTrip.andZpX (z : Byte) : RoundTrip.Statement (.andZpX z) := fun wM wX _ =>
  (rfl : decode wM wX [0x35, z] = .ok (.andZpX z, []))
theorem RoundTrip.rolZpX (z : Byte) : RoundTrip.Statement (.rolZpX z) := fun wM wX _ =>
  (rfl : decode wM wX [0x36, z] = .ok (.rolZpX z, []))
theorem RoundTrip.andIrrY (o : Byte) : RoundTrip.Statement (.andIrrY o) := fun wM wX _ =>
  (rfl : decode wM wX [0x37, o] = .ok (.andIrrY o, []))
theorem RoundTrip.sec : RoundTrip.Statement .sec := fun wM wX _ =>
  (rfl : decode wM wX [0x38] = .ok (.sec, []))
theorem RoundTrip.andAbsY (w : Word) : RoundTrip.Statement (.andAbsY w) := fun wM wX _ =>
  (rfl : decode wM wX [0x39, loByte w, hiByte w] = .ok (.andAbsY (mkWord (loByte w) (hiByte w)), [])).trans
    (congrArg (fun u => Except.ok (Instr.andAbsY u, [])) (mkWord_loByte_hiByte w))
theorem RoundTrip.decAcc : RoundTrip.Statement .decAcc := fun wM wX _ =>
  (rfl : decode wM wX [0x3A] = .ok (.decAcc, []))
theorem RoundTrip.rlx : RoundTrip.Statement .rlx := fun wM wX _ =>
  (rfl : decode wM wX [0x3B] = .ok (.rlx, []))
theorem RoundTrip.bitAbsX (w : Word) : RoundTrip.Statement (.bitAbsX w) := fun wM wX _ =>
  (rfl : decode wM wX [0x3C, loByte w, hiByte w] = .ok (.bitAbsX (mkWord (loByte w) (hiByte w)), [])).trans
    (congrArg (fun u => Except.ok (Instr.bitAbsX u, [])) (mkWord_loByte_hiByte w))
theorem RoundTrip.andAbsX (w : Word) : RoundTrip.Statement (.andAbsX w) := fun wM wX _ =>
  (rfl : decode wM wX [0x3D, loByte w, hiByte w] = .ok (.andAbsX (mkWord (loByte w) (hiByte w)), [])).trans
    (congrArg (fun u => Except.ok (Instr.andAbsX u, [])) (mkWord_loByte_hiByte w))
theorem RoundTrip.rolAbsX (w : Word) : RoundTrip.Statement (.rolAbsX w) := fun wM wX _ =>
  (rfl : decode wM wX [0x3E, loByte w, hiByte w] = .ok (.rolAbsX (mkWord (loByte w) (hiByte w)), [])).trans
    (congrArg (fun u => Except.ok (Instr.rolAbsX u, [])) (mkWord_loByte_hiByte w))
theorem RoundTrip.mulAbsX (w : Word) : RoundTrip.Statement (.mulAbsX w) := fun wM wX _ =>
  (rfl : decode wM wX [0x3F, loByte w, hiByte w] = .ok (.mulAbsX (mkWord (loByte w) (hiByte w)), [])).trans
    (congrArg (fun u => Except.ok (Instr.mulAbsX u, [])) (mkWord_loByte_hiByte w))
theorem RoundTrip.rti : RoundTrip.Statement .rti := fun wM wX _ =>
  (rfl : decode wM wX [0x40] = .ok (.rti, []))
theorem RoundTrip.eorIzpX (z : Byte) : RoundTrip.Statement (.eorIzpX z) := fun wM wX _ =>
  (rfl : decode wM wX [0x41, z] = .ok (.eorIzpX z, []))
theorem RoundTrip.nxa : RoundTrip.Statement .nxa := fun wM wX _ =>
  (rfl : decode wM wX [0x42] = .ok (.nxa, []))
theorem RoundTrip.eorSr (o : Byte) : RoundTrip.Statement (.eorSr o) := fun wM wX _ =>
  (rfl : decode wM wX [0x43, o] = .ok (.eorSr o, []))
theorem RoundTrip.rea (w : Word) : RoundTrip.Statement (.rea w) := fun wM wX _ =>
  (rfl : decode wM wX [0x44, loByte w, hiByte w] = .ok (.rea (mkWord (loByte w) (hiByte w)), [])).trans
    (congrArg (fun u => Except.ok (Instr.rea u, [])) (mkWord_loByte_hiByte w))
theorem RoundTrip.eorZp (z : Byte) : RoundTrip.Statement (.eorZp z) := fun wM wX _ =>
  (rfl : decode wM wX [0x45, z] = .ok (.eorZp z, []))
theorem RoundTrip.lsrZp (z : Byte) : RoundTrip.Statement (.lsrZp z) := fun wM wX _ =>
  (rfl : decode wM wX [0x46, z] = .ok (.lsrZp z, []))
theorem RoundTrip.eorRr (o : Byte) : RoundTrip.Statement (.eorRr o) := fun wM wX _ =>
  (rfl : decode wM wX [0x47, o] = .ok (.eorRr o, []))
theorem RoundTrip.pha : RoundTrip.Statement .pha := fun wM wX _ =>
  (rfl : decode wM wX [0x48] = .ok (.pha, []))
theorem RoundTrip.eorImmM (v : Word) : RoundTrip.Statement (.eorImmM v) := fun wM wX h => by
  cases wM
  · exact (rfl : decode _ _ [0x49, loByte v] = .ok (.eorImmM (immOf .w8 (loByte v) 0), [])).trans
      (congrArg (fun u => Except.ok (Instr.eorImmM u, [])) (immOf_encodeImm .w8 v h))
  · exact (rfl : decode _ _ [0x49, loByte v, hiByte v] = .ok (.eorImmM (immOf .w16 (loByte v) (hiByte v)), [])).trans
      (congrArg (fun u => Except.ok (Instr.eorImmM u, [])) (immOf_encodeImm .w16 v h))
theorem RoundTrip.lsrAcc : RoundTrip.Statement .lsrAcc := fun wM wX _ =>
  (rfl : decode wM wX [0x4A] = .ok (.lsrAcc, []))
theorem RoundTrip.rha : RoundTrip.Statement .rha := fun wM wX _ =>
  (rfl : decode wM wX [0x4B] = .ok (.rha, []))
theorem RoundTrip.jmpAbs (w : Word) : RoundTrip.Statement (.jmpAbs w) := fun wM wX _ =>
  (rfl : decode wM wX [0x4C, loByte w, hiByte w] = .ok (.jmpAbs (mkWord (loByte w) (hiByte w)), [])).trans
    (congrArg (fun u => Except.ok (Instr.jmpAbs u, [])) (mkWord_loByte_hiByte w))
theorem RoundTrip.eorAbs (w : Word) : RoundTrip.Statement (.eorAbs w) := fun wM wX _ =>
  (rfl : decode wM wX [0x4D, loByte w, hiByte w] = .ok (.eorAbs (mkWord (loByte w) (hiByte w)), [])).trans
    (congrArg (fun u => Except.ok (Instr.eorAbs u, [])) (mkWord_loByte_hiByte w))
theorem RoundTrip.lsrAbs (w : Word) : RoundTrip.Statement (.lsrAbs w) := fun wM wX _ =>
  (rfl : decode wM wX [0x4E, loByte w, hiByte w] = .ok (.lsrAbs (mkWord (loByte w) (hiByte w)), [])).trans
    (congrArg (fun u => Except.ok (Instr.lsrAbs u, [])) (mkWord_loByte_hiByte w))
theorem RoundTrip.divZp (z : Byte) : RoundTrip.Statement (.divZp z) := fun wM wX _ =>
  (rfl : decode wM wX [0x4F, z] = .ok (.divZp z, []))
theorem RoundTrip.bvc (b : Byte) : RoundTrip.Statement (.bvc b) := fun wM wX _ =>
  (rfl : decode wM wX [0x50, b] = .ok (.bvc b, []))
theorem RoundTrip.eorIzpY (z : Byte) : RoundTrip.Statement (.eorIzpY z) := fun wM wX _ =>
  (rfl : decode wM wX [0x51, z] = .ok (.eorIzpY z, []))
theorem RoundTrip.eorIzp (z : Byte) : RoundTrip.Statement (.eorIzp z) := fun wM wX _ =>
  (rfl : decode wM wX [0x52, z] = .ok (.eorIzp z, []))
theorem RoundTrip.eorIsrY (o : Byte) : RoundTrip.Statement (.eorIsrY o) := fun wM wX _ =>
  (rfl : decode wM wX [0x53, o] = .ok (.eorIsrY o, []))
theorem RoundTrip.rei (z : Byte) : RoundTrip.Statement (.rei z) := fun wM wX _ =>
  (rfl : decode wM wX [0x54, z] = .ok (.rei z, []))
theorem RoundTrip.eorZpX (z : Byte) : RoundTrip.Statement (.eorZpX z) := fun wM wX _ =>
  (rfl : decode wM wX [0x55, z] = .ok (.eorZpX z, []))
theorem RoundTrip.lsrZpX (z : Byte) : RoundTrip.Statement (.lsrZpX z) := fun wM wX _ =>
  (rfl : decode wM wX [0x56, z] = .ok (.lsrZpX z, []))
theorem RoundTrip.eorIrrY (o : Byte) : RoundTrip.Statement (.eorIrrY o) := fun wM wX _ =>
  (rfl : decode wM wX [0x57, o] = .ok (.eorIrrY o, []))
theorem RoundTrip.cli : RoundTrip.Statement .cli := fun wM wX _ =>
  (rfl : decode wM wX [0x58] = .ok (.cli, []))
theorem RoundTrip.eorAbsY (w : Word) : RoundTrip.Statement (.eorAbsY w) := fun wM wX _ =>
  (rfl : decode wM wX [0x59, loByte w, hiByte w] = .ok (.eorAbsY (mkWord (loByte w) (hiByte w)), [])).trans
    (congrArg (fun u => Except.ok (Instr.eorAbsY u, [])) (mkWord_loByte_hiByte w))
theorem RoundTrip.phy : RoundTrip.Statement .phy := fun wM wX _ =>
  (rfl : decode wM wX [0x5A] = .ok (.phy, []))
theorem RoundTrip.rhy : RoundTrip.Statement .rhy := fun wM wX _ =>
  (rfl : decode wM wX [0x5B] = .ok (.rhy, []))
theorem RoundTrip.txi : RoundTrip.Statement .txi := fun wM wX _ =>
  (rfl : decode wM wX [0x5C] = .ok (.txi, []))
theorem RoundTrip.eorAbsX (w : Word) : RoundTrip.Statement (.eorAbsX w) := fun wM wX _ =>
  (rfl : decode wM wX [0x5D, loByte w, hiByte w] = .ok (.eorAbsX (mkWord (loByte w) (hiByte w)), [])).trans
    (congrArg (fun u => Except.ok (Instr.eorAbsX u, [])) (mkWord_loByte_hiByte w))
theorem RoundTrip.lsrAbsX (w : Word) : RoundTrip.Statement (.lsrAbsX w) := fun wM wX _ =>
  (rfl : decode wM wX [0x5E, loByte w, hiByte w] = .ok (.lsrAbsX (mkWord (loByte w) (hiByte w)), [])).trans
    (congrArg (fun u => Except.ok (Instr.lsrAbsX u, [])) (mkWord_loByte_hiByte w))
theorem RoundTrip.divZpX (z : Byte) : RoundTrip.Statement (.divZpX z) := fun wM wX _ =>
  (rfl : decode wM wX [0x5F, z] = .ok (.divZpX z, []))
theorem RoundTrip.rts : RoundTrip.Statement .rts := fun wM wX _ =>
  (rfl : decode wM wX [0x60] = .ok (.rts, []))
theorem RoundTrip.adcIzpX (z : Byte) : RoundTrip.Statement (.adcIzpX z) := fun wM wX _ =>
  (rfl : decode wM wX [0x61, z] = .ok (.adcIzpX z, []))
theorem RoundTrip.per (w : Word) : RoundTrip.Statement (.per w) := fun wM wX _ =>
  (rfl : decode wM wX [0x62, loByte w, hiByte w] = .ok (.per (mkWord (loByte w) (hiByte w)), [])).trans
    (congrArg (fun u => Except.ok (Instr.per u, [])) (mkWord_loByte_hiByte w))
theorem RoundTrip.adcSr (o : Byte) : RoundTrip.Statement (.adcSr o) := fun wM wX _ =>
  (rfl : decode wM wX [0x63, o] = .ok (.adcSr o, []))
theorem RoundTrip.stzZp (z : Byte) : RoundTrip.Statement (.stzZp z) := fun wM wX _ =>
  (rfl : decode wM wX [0x64, z] = .ok (.stzZp z, []))
theorem RoundTrip.adcZp (z : Byte) : RoundTrip.Statement (.adcZp z) := fun wM wX _ =>
  (rfl : decode wM wX [0x65, z] = .ok (.adcZp z, []))
theorem RoundTrip.rorZp (z : Byte) : RoundTrip.Statement (.rorZp z) := fun wM wX _ =>
  (rfl : decode wM wX [0x66, z] = .ok (.rorZp z, []))
theorem RoundTrip.adcRr (o : Byte) : RoundTrip.Statement (.adcRr o) := fun wM wX _ =>
  (rfl : decode wM wX [0x67, o] = .ok (.adcRr o, []))
theorem RoundTrip.pla : RoundTrip.Statement .pla := fun wM wX _ =>
  (rfl : decode wM wX [0x68] = .ok (.pla, []))
theorem RoundTrip.adcImmM (v : Word) : RoundTrip.Statement (.adcImmM v) := fun wM wX h => by
  cases wM
  · exact (rfl : decode _ _ [0x69, loByte v] = .ok (.adcImmM (immOf .w8 (loByte v) 0), [])).trans
      (congrArg (fun u => Except.ok (Instr.adcImmM u, [])) (immOf_encodeImm .w8 v h))
  · exact (rfl : decode _ _ [0x69, loByte v, hiByte v] = .ok (.adcImmM (immOf .w16 (loByte v) (hiByte v)), [])).trans
      (congrArg (fun u => Except.ok (Instr.adcImmM u, [])) (immOf_encodeImm .w16 v h))
theorem RoundTrip.rorAcc : RoundTrip.Statement .rorAcc := fun wM wX _ =>
  (rfl : decode wM wX [0x6A] = .ok (.rorAcc, []))
theorem RoundTrip.rla : RoundTrip.Statement .rla := fun wM wX _ =>
  (rfl : decode wM wX [0x6B] = .ok (.rla, []))
theorem RoundTrip.jmpIabs (w : Word) : RoundTrip.Statement (.jmpIabs w) := fun wM wX _ =>
  (rfl : decode wM wX [0x6C, loByte w, hiByte w] = .ok (.jmpIabs (mkWord (loByte w) (hiByte w)), [])).trans
    (congrArg (fun u => Except.ok (Instr.jmpIabs u, [])) (mkWord_loByte_hiByte w))
theorem RoundTrip.adcAbs (w : Word) : RoundTrip.Statement (.adcAbs w) := fun wM wX _ =>
  (rfl : decode wM wX [0x6D, loByte w, hiByte w] = .ok (.adcAbs (mkWord (loByte w) (hiByte w)), [])).trans
    (congrArg (fun u => Except.ok (Instr.adcAbs u, [])) (mkWord_loByte_hiByte w))
theorem RoundTrip.rorAbs (w : Word) : RoundTrip.Statement (.rorAbs w) := fun wM wX _ =>
  (rfl : decode wM wX [0x6E, loByte w, hiByte w] = .ok (.rorAbs (mkWord (loByte w) (hiByte w)), [])).trans
    (congrArg (fun u => Except.ok (Instr.rorAbs u, [])) (mkWord_loByte_hiByte w))
theorem RoundTrip.divAbs (w : Word) : RoundTrip.Statement (.divAbs w) := fun wM wX _ =>
  (rfl : decode wM wX [0x6F, loByte w, hiByte w] = .ok (.divAbs (mkWord (loByte w) (hiByte w)), [])).trans
    (congrArg (fun u => Except.ok (Instr.divAbs u, [])) (mkWord_loByte_hiByte w))
theorem RoundTrip.bvs (b : Byte) : RoundTrip.Statement (.bvs b) := fun wM wX _ =>
  (rfl : decode wM wX [0x70, b] = .ok (.bvs b, []))
theorem RoundTrip.adcIzpY (z : Byte) : RoundTrip.Statement (.adcIzpY z) := fun wM wX _ =>
  (rfl : decode wM wX [0x71, z] = .ok (.adcIzpY z, []))
theorem RoundTrip.adcIzp (z : Byte) : RoundTrip.Statement (.adcIzp z) := fun wM wX _ =>
  (rfl : decode wM wX [0x72, z] = .ok (.adcIzp z, []))
theorem RoundTrip.adcIsrY (o : Byte) : RoundTrip.Statement (.adcIsrY o) := fun wM wX _ =>
  (rfl : decode wM wX [0x73, o] = .ok (.adcIsrY o, []))
theorem RoundTrip.stzZpX (z : Byte) : RoundTrip.Statement (.stzZpX z) := fun wM wX _ =>
  (rfl : decode wM wX [0x74, z] = .ok (.stzZpX z, []))
theorem RoundTrip.adcZpX (z : Byte) : RoundTrip.Statement (.adcZpX z) := fun wM wX _ =>
  (rfl : decode wM wX [0x75, z] = .ok (.adcZpX z, []))
theorem RoundTrip.rorZpX (z : Byte) : RoundTrip.Statement (.rorZpX z) := fun wM wX _ =>
  (rfl : decode wM wX [0x76, z] = .ok (.rorZpX z, []))
theorem RoundTrip.adcIrrY (o : Byte) : RoundTrip.Statement (.adcIrrY o) := fun wM wX _ =>
  (rfl : decode wM wX [0x77, o] = .ok (.adcIrrY o, []))
theorem RoundTrip.sei : RoundTrip.Statement .sei := fun wM wX _ =>
  (rfl : decode wM wX [0x78] = .ok (.sei, []))
theorem RoundTrip.adcAbsY (w : Word) : RoundTrip.Statement (.adcAbsY w) := fun wM wX _ =>
  (rfl : decode wM wX [0x79, loByte w, hiByte w] = .ok (.adcAbsY (mkWord (loByte w) (hiByte w)), [])).trans
    (congrArg (fun u => Except.ok (Instr.adcAbsY u, [])) (mkWord_loByte_hiByte w))
theorem RoundTrip.ply : RoundTrip.Statement .ply := fun wM wX _ =>
  (rfl : decode wM wX [0x7A] = .ok (.ply, []))
theorem RoundTrip.rly : RoundTrip.Statement .rly := fun wM wX _ =>
  (rfl : decode wM wX [0x7B] = .ok (.rly, []))
theorem RoundTrip.jmpIabsX (w : Word) : RoundTrip.Statement (.jmpIabsX w) := fun wM wX _ =>
  (rfl : decode wM wX [0x7C, loByte w, hiByte w] = .ok (.jmpIabsX (mkWord (loByte w) (hiByte w)), [])).trans
    (congrArg (fun u => Except.ok (Instr.jmpIabsX u, [])) (mkWord_loByte_hiByte w))
theorem RoundTrip.adcAbsX (w : Word) : RoundTrip.Statement (.adcAbsX w) := fun wM wX _ =>
  (rfl : decode wM wX [0x7D, loByte w, hiByte w] = .ok (.adcAbsX (mkWord (loByte w) (hiByte w)), [])).trans
    (congrArg (fun u => Except.ok (Instr.adcAbsX u, [])) (mkWord_loByte_hiByte w))
theorem RoundTrip.rorAbsX (w : Word) : RoundTrip.Statement (.rorAbsX w) := fun wM wX _ =>
  (rfl : decode wM wX [0x7E, loByte w, hiByte w] = .ok (.rorAbsX (mkWord (loByte w) (hiByte w)), [])).trans
    (congrArg (fun u => Except.ok (Instr.rorAbsX u, [])) (mkWord_loByte_hiByte w))
theorem RoundTrip.divAbsX (w : Word) : RoundTrip.Statement (.divAbsX w) := fun wM wX _ =>
  (rfl : decode wM wX [0x7F, loByte w, hiByte w] = .ok (.divAbsX (mkWord (loByte w) (hiByte w)), [])).trans
    (congrArg (fun u => Except.ok (Instr.divAbsX u, [])) (mkWord_loByte_hiByte w))
theorem RoundTrip.bra (b : Byte) : RoundTrip.Statement (.bra b) := fun wM wX _ =>
  (rfl : decode wM wX [0x80, b] = .ok (.bra b, []))
theorem RoundTrip.staIzpX (z : Byte) : RoundTrip.Statement (.staIzpX z) := fun wM wX _ =>
  (rfl : decode wM wX [0x81, z] = .ok (.staIzpX z, []))
theorem RoundTrip.rer (w : Word) : RoundTrip.Statement (.rer w) := fun wM wX _ =>
  (rfl : decode wM wX [0x82, loByte w, hiByte w] = .ok (.rer (mkWord (loByte w) (hiByte w)), [])).trans
    (congrArg (fun u => Except.ok (Instr.rer u, [])) (mkWord_loByte_hiByte w))
theorem RoundTrip.staSr (o : Byte) : RoundTrip.Statement (.staSr o) := fun wM wX _ =>
  (rfl : decode wM wX [0x83, o] = .ok (.staSr o, []))
theorem RoundTrip.styZp (z : Byte) : RoundTrip.Statement (.styZp z) := fun wM wX _ =>
  (rfl : decode wM wX [0x84, z] = .ok (.styZp z, []))
theorem RoundTrip.staZp (z : Byte) : RoundTrip.Statement (.staZp z) := fun wM wX _ =>
  (rfl : decode wM wX [0x85, z] = .ok (.staZp z, []))
theorem RoundTrip.stxZp (z : Byte) : RoundTrip.Statement (.stxZp z) := fun wM wX _ =>
  (rfl : decode wM wX [0x86, z] = .ok (.stxZp z, []))
theorem RoundTrip.staRr (o : Byte) : RoundTrip.Statement (.staRr o) := fun wM wX _ =>
  (rfl : decode wM wX [0x87, o] = .ok (.staRr o, []))
theorem RoundTrip.dey : RoundTrip.Statement .dey := fun wM wX _ =>
  (rfl : decode wM wX [0x88] = .ok (.dey, []))
theorem RoundTrip.bitImmM (v : Word) : RoundTrip.Statement (.bitImmM v) := fun wM wX h => by
  cases wM
  · exact (rfl : decode _ _ [0x89, loByte v] = .ok (.bitImmM (immOf .w8 (loByte v) 0), [])).trans
      (congrArg (fun u => Except.ok (Instr.bitImmM u, [])) (immOf_encodeImm .w8 v h))
  · exact (rfl : decode _ _ [0x89, loByte v, hiByte v] = .ok (.bitImmM (immOf .w16 (loByte v) (hiByte v)), [])).trans
      (congrArg (fun u => Except.ok (Instr.bitImmM u, [])) (immOf_encodeImm .w16 v h))
theorem RoundTrip.txa : RoundTrip.Statement .txa := fun wM wX _ =>
  (rfl : decode wM wX [0x8A] = .ok (.txa, []))
theorem RoundTrip.txr : RoundTrip.Statement .txr := fun wM wX _ =>
  (rfl : decode wM wX [0x8B] = .ok (.txr, []))
theorem RoundTrip.styAbs (w : Word) : RoundTrip.Statement (.styAbs w) := fun wM wX _ =>
  (rfl : decode wM wX [0x8C, loByte w, hiByte w] = .ok (.styAbs (mkWord (loByte w) (hiByte w)), [])).trans
    (congrArg (fun u => Except.ok (Instr.styAbs u, [])) (mkWord_loByte_hiByte w))
theorem RoundTrip.staAbs (w : Word) : RoundTrip.Statement (.staAbs w) := fun wM wX _ =>
  (rfl : decode wM wX [0x8D, loByte w, hiByte w] = .ok (.staAbs (mkWord (loByte w) (hiByte w)), [])).trans
    (congrArg (fun u => Except.ok (Instr.staAbs u, [])) (mkWord_loByte_hiByte w))
theorem RoundTrip.stxAbs (w : Word) : RoundTrip.Statement (.stxAbs w) := fun wM wX _ =>
  (rfl : decode wM wX [0x8E, loByte w, hiByte w] = .ok (.stxAbs (mkWord (loByte w) (hiByte w)), [])).trans
    (congrArg (fun u => Except.ok (Instr.stxAbs u, [])) (mkWord_loByte_hiByte w))
theorem RoundTrip.zea : RoundTrip.Statement .zea := fun wM wX _ =>
  (rfl : decode wM wX [0x8F] = .ok (.zea, []))
theorem RoundTrip.bcc (b : Byte) : RoundTrip.Statement (.bcc b) := fun wM wX _ =>
  (rfl : decode wM wX [0x90, b] = .ok (.bcc b, []))
theorem RoundTrip.staIzpY (z : Byte) : RoundTrip.Statement (.staIzpY z) := fun wM wX _ =>
  (rfl : decode wM wX [0x91, z] = .ok (.staIzpY z, []))
theorem RoundTrip.staIzp (z : Byte) : RoundTrip.Statement (.staIzp z) := fun wM wX _ =>
  (rfl : decode wM wX [0x92, z] = .ok (.staIzp z, []))
theorem RoundTrip.staIsrY (o : Byte) : RoundTrip.Statement (.staIsrY o) := fun wM wX _ =>
  (rfl : decode wM wX [0x93, o] = .ok (.staIsrY o, []))
theorem RoundTrip.styZpX (z : Byte) : RoundTrip.Statement (.styZpX z) := fun wM wX _ =>
  (rfl : decode wM wX [0x94, z] = .ok (.styZpX z, []))
theorem RoundTrip.staZpX (z : Byte) : RoundTrip.Statement (.staZpX z) := fun wM wX _ =>
  (rfl : decode wM wX [0x95, z] = .ok (.staZpX z, []))
theorem RoundTrip.stxZpY (z : Byte) : RoundTrip.Statement (.stxZpY z) := fun wM wX _ =>
  (rfl : decode wM wX [0x96, z] = .ok (.stxZpY z, []))
theorem RoundTrip.staIrrY (o : Byte) : RoundTrip.Statement (.staIrrY o) := fun wM wX _ =>
  (rfl : decode wM wX [0x97, o] = .ok (.staIrrY o, []))
theorem RoundTrip.tya : RoundTrip.Statement .tya := fun wM wX _ =>
  (rfl : decode wM wX [0x98] = .ok (.tya, []))
theorem RoundTrip.staAbsY (w : Word) : RoundTrip.Statement (.staAbsY w) := fun wM wX _ =>
  (rfl : decode wM wX [0x99, loByte w, hiByte w] = .ok (.staAbsY (mkWord (loByte w) (hiByte w)), [])).trans
    (congrArg (fun u => Except.ok (Instr.staAbsY u, [])) (mkWord_loByte_hiByte w))
theorem RoundTrip.txs : RoundTrip.Statement .txs := fun wM wX _ =>
  (rfl : decode wM wX [0x9A] = .ok (.txs, []))
theorem RoundTrip.txy : RoundTrip.Statement .txy := fun wM wX _ =>
  (rfl : decode wM wX [0x9B] = .ok (.txy, []))
theorem RoundTrip.stzAbs (w : Word) : RoundTrip.Statement (.stzAbs w) := fun wM wX _ =>
  (rfl : decode wM wX [0x9C, loByte w, hiByte w] = .ok (.stzAbs (mkWord (loByte w) (hiByte w)), [])).trans
    (congrArg (fun u => Except.ok (Instr.stzAbs u, [])) (mkWord_loByte_hiByte w))
theorem RoundTrip.staAbsX (w : Word) : RoundTrip.Statement (.staAbsX w) := fun wM wX _ =>
  (rfl : decode wM wX [0x9D, loByte w, hiByte w] = .ok (.staAbsX (mkWord (loByte w) (hiByte w)), [])).trans
    (congrArg (fun u => Except.ok (Instr.staAbsX u, [])) (mkWord_loByte_hiByte w))
theorem RoundTrip.stzAbsX (w : Word) : RoundTrip.Statement (.stzAbsX w) := fun wM wX _ =>
  (rfl : decode wM wX [0x9E, loByte w, hiByte w] = .ok (.stzAbsX (mkWord (loByte w) (hiByte w)), [])).trans
    (congrArg (fun u => Except.ok (Instr.stzAbsX u, [])) (mkWord_loByte_hiByte w))
theorem RoundTrip.sea : RoundTrip.Statement .sea := fun wM wX _ =>
  (rfl : decode wM wX [0x9F] = .ok (.sea, []))
theorem RoundTrip.ldyImmX (v : Word) : RoundTrip.Statement (.ldyImmX v) := fun wM wX h => by
  cases wX
  · exact (rfl : decode _ _ [0xA0, loByte v] = .ok (.ldyImmX (immOf .w8 (loByte v) 0), [])).trans
      (congrArg (fun u => Except.ok (Instr.ldyImmX u, [])) (immOf_encodeImm .w8 v h))
  · exact (rfl : decode _ _ [0xA0, loByte v, hiByte v] = .ok (.ldyImmX (immOf .w16 (loByte v) (hiByte v)), [])).trans
      (congrArg (fun u => Except.ok (Instr.ldyImmX u, [])) (immOf_encodeImm .w16 v h))
theorem RoundTrip.ldaIzpX (z : Byte) : RoundTrip.Statement (.ldaIzpX z) := fun wM wX _ =>
  (rfl : decode wM wX [0xA1, z] = .ok (.ldaIzpX z, []))
theorem RoundTrip.ldxImmX (v : Word) : RoundTrip.Statement (.ldxImmX v) := fun wM wX h => by
  cases wX
  · exact (rfl : decode _ _ [0xA2, loByte v] = .ok (.ldxImmX (immOf .w8 (loByte v) 0), [])).trans
      (congrArg (fun u => Except.ok (Instr.ldxImmX u, [])) (immOf_encodeImm .w8 v h))
  · exact (rfl : decode _ _ [0xA2, loByte v, hiByte v] = .ok (.ldxImmX (immOf .w16 (loByte v) (hiByte v)), [])).trans
      (congrArg (fun u => Except.ok (Instr.ldxImmX u, [])) (immOf_encodeImm .w16 v h))
theorem RoundTrip.ldaSr (o : Byte) : RoundTrip.Statement (.ldaSr o) := fun wM wX _ =>
  (rfl : decode wM wX [0xA3, o] = .ok (.ldaSr o, []))
theorem RoundTrip.ldyZp (z : Byte) : RoundTrip.Statement (.ldyZp z) := fun wM wX _ =>
  (rfl : decode wM wX [0xA4, z] = .ok (.ldyZp z, []))
theorem RoundTrip.ldaZp (z : Byte) : RoundTrip.Statement (.ldaZp z) := fun wM wX _ =>
  (rfl : decode wM wX [0xA5, z] = .ok (.ldaZp z, []))
theorem RoundTrip.ldxZp (z : Byte) : RoundTrip.Statement (.ldxZp z) := fun wM wX _ =>
  (rfl : decode wM wX [0xA6, z] = .ok (.ldxZp z, []))
theorem RoundTrip.ldaRr (o : Byte) : RoundTrip.Statement (.ldaRr o) := fun wM wX _ =>
  (rfl : decode wM wX [0xA7, o] = .ok (.ldaRr o, []))
theorem RoundTrip.tay : RoundTrip.Statement .tay := fun wM wX _ =>
  (rfl : decode wM wX [0xA8] = .ok (.tay, []))
theorem RoundTrip.ldaImmM (v : Word) : RoundTrip.Statement (.ldaImmM v) := fun wM wX h => by
  cases wM
  · exact (rfl : decode _ _ [0xA9, loByte v] = .ok (.ldaImmM (immOf .w8 (loByte v) 0), [])).trans
      (congrArg (fun u => Except.ok (Instr.ldaImmM u, [])) (immOf_encodeImm .w8 v h))
  · exact (rfl : decode _ _ [0xA9, loByte v, hiByte v] = .ok (.ldaImmM (immOf .w16 (loByte v) (hiByte v)), [])).trans
      (congrArg (fun u => Except.ok (Instr.ldaImmM u, [])) (immOf_encodeImm .w16 v h))
theorem RoundTrip.tax : RoundTrip.Statement .tax := fun wM wX _ =>
  (rfl : decode wM wX [0xAA] = .ok (.tax, []))
theorem RoundTrip.trx : RoundTrip.Statement .trx := fun wM wX _ =>
  (rfl : decode wM wX [0xAB] = .ok (.trx, []))
theorem RoundTrip.ldyAbs (w : Word) : RoundTrip.Statement (.ldyAbs w) := fun wM wX _ =>
  (rfl : decode wM wX [0xAC, loByte w, hiByte w] = .ok (.ldyAbs (mkWord (loByte w) (hiByte w)), [])).trans
    (congrArg (fun u => Except.ok (Instr.ldyAbs u, [])) (mkWord_loByte_hiByte w))
theorem RoundTrip.ldaAbs (w : Word) : RoundTrip.Statement (.ldaAbs w) := fun wM wX _ =>
  (rfl : decode wM wX [0xAD, loByte w, hiByte w] = .ok (.ldaAbs (mkWord (loByte w) (hiByte w)), [])).trans
    (congrArg (fun u => Except.ok (Instr.ldaAbs u, [])) (mkWord_loByte_hiByte w))
theorem RoundTrip.ldxAbs (w : Word) : RoundTrip.Statement (.ldxAbs w) := fun wM wX _ =>
  (rfl : decode wM wX [0xAE, loByte w, hiByte w] = .ok (.ldxAbs (mkWord (loByte w) (hiByte w)), [])).trans
    (congrArg (fun u => Except.ok (Instr.ldxAbs u, [])) (mkWord_loByte_hiByte w))
theorem RoundTrip.tda : RoundTrip.Statement .tda := fun wM wX _ =>
  (rfl : decode wM wX [0xAF] = .ok (.tda, []))
theorem RoundTrip.bcs (b : Byte) : RoundTrip.Statement (.bcs b) := fun wM wX _ =>
  (rfl : decode wM wX [0xB0, b] = .ok (.bcs b, []))
theorem RoundTrip.ldaIzpY (z : Byte) : RoundTrip.Statement (.ldaIzpY z) := fun wM wX _ =>
  (rfl : decode wM wX [0xB1, z] = .ok (.ldaIzpY z, []))
theorem RoundTrip.ldaIzp (z : Byte) : RoundTrip.Statement (.ldaIzp z) := fun wM wX _ =>
  (rfl : decode wM wX [0xB2, z] = .ok (.ldaIzp z, []))
theorem RoundTrip.ldaIsrY (o : Byte) : RoundTrip.Statement (.ldaIsrY o) := fun wM wX _ =>
  (rfl : decode wM wX [0xB3, o] = .ok (.ldaIsrY o, []))
theorem RoundTrip.ldyZpX (z : Byte) : RoundTrip.Statement (.ldyZpX z) := fun wM wX _ =>
  (rfl : decode wM wX [0xB4, z] = .ok (.ldyZpX z, []))
theorem RoundTrip.ldaZpX (z : Byte) : RoundTrip.Statement (.ldaZpX z) := fun wM wX _ =>
  (rfl : decode wM wX [0xB5, z] = .ok (.ldaZpX z, []))
theorem RoundTrip.ldxZpY (z : Byte) : RoundTrip.Statement (.ldxZpY z) := fun wM wX _ =>
  (rfl : decode wM wX [0xB6, z] = .ok (.ldxZpY z, []))
theorem RoundTrip.ldaIrrY (o : Byte) : RoundTrip.Statement (.ldaIrrY o) := fun wM wX _ =>
  (rfl : decode wM wX [0xB7, o] = .ok (.ldaIrrY o, []))
theorem RoundTrip.clv : RoundTrip.Statement .clv := fun wM wX _ =>
  (rfl : decode wM wX [0xB8] = .ok (.clv, []))
theorem RoundTrip.ldaAbsY (w : Word) : RoundTrip.Statement (.ldaAbsY w) := fun wM wX _ =>
  (rfl : decode wM wX [0xB9, loByte w, hiByte w] = .ok (.ldaAbsY (mkWord (loByte w) (hiByte w)), [])).trans
    (congrArg (fun u => Except.ok (Instr.ldaAbsY u, [])) (mkWord_loByte_hiByte w))
theorem RoundTrip.tsx : RoundTrip.Statement .tsx := fun wM wX _ =>
  (rfl : decode wM wX [0xBA] = .ok (.tsx, []))
theorem RoundTrip.tyx : RoundTrip.Statement .tyx := fun wM wX _ =>
  (rfl : decode wM wX [0xBB] = .ok (.tyx, []))
theorem RoundTrip.ldyAbsX (w : Word) : RoundTrip.Statement (.ldyAbsX w) := fun wM wX _ =>
  (rfl : decode wM wX [0xBC, loByte w, hiByte w] = .ok (.ldyAbsX (mkWord (loByte w) (hiByte w)), [])).trans
    (congrArg (fun u => Except.ok (Instr.ldyAbsX u, [])) (mkWord_loByte_hiByte w))
theorem RoundTrip.ldaAbsX (w : Word) : RoundTrip.Statement (.ldaAbsX w) := fun wM wX _ =>
  (rfl : decode wM wX [0xBD, loByte w, hiByte w] = .ok (.ldaAbsX (mkWord (loByte w) (hiByte w)), [])).trans
    (congrArg (fun u => Except.ok (Instr.ldaAbsX u, [])) (mkWord_loByte_hiByte w))
theorem RoundTrip.ldxAbsY (w : Word) : RoundTrip.Statement (.ldxAbsY w) := fun wM wX _ =>
  (rfl : decode wM wX [0xBE, loByte w, hiByte w] = .ok (.ldxAbsY (mkWord (loByte w) (hiByte w)), [])).trans
    (congrArg (fun u => Except.ok (Instr.ldxAbsY u, [])) (mkWord_loByte_hiByte w))
theorem RoundTrip.tad : RoundTrip.Statement .tad := fun wM wX _ =>
  (rfl : decode wM wX [0xBF] = .ok (.tad, []))
theorem RoundTrip.cpyImmX (v : Word) : RoundTrip.Statement (.cpyImmX v) := fun wM wX h => by
  cases wX
  · exact (rfl : decode _ _ [0xC0, loByte v] = .ok (.cpyImmX (immOf .w8 (loByte v) 0), [])).trans
      (congrArg (fun u => Except.ok (Instr.cpyImmX u, [])) (immOf_encodeImm .w8 v h))
  · exact (rfl : decode _ _ [0xC0, loByte v, hiByte v] = .ok (.cpyImmX (immOf .w16 (loByte v) (hiByte v)), [])).trans
      (congrArg (fun u => Except.ok (Instr.cpyImmX u, [])) (immOf_encodeImm .w16 v h))
theorem RoundTrip.cmpIzpX (z : Byte) : RoundTrip.Statement (.cmpIzpX z) := fun wM wX _ =>
  (rfl : decode wM wX [0xC1, z] = .ok (.cmpIzpX z, []))
theorem RoundTrip.rep (k : Byte) : RoundTrip.Statement (.rep k) := fun wM wX _ =>
  (rfl : decode wM wX [0xC2, k] = .ok (.rep k, []))
theorem RoundTrip.cmpSr (o : Byte) : RoundTrip.Statement (.cmpSr o) := fun wM wX _ =>
  (rfl : decode wM wX [0xC3, o] = .ok (.cmpSr o, []))
theorem RoundTrip.cpyZp (z : Byte) : RoundTrip.Statement (.cpyZp z) := fun wM wX _ =>
  (rfl : decode wM wX [0xC4, z] = .ok (.cpyZp z, []))
theorem RoundTrip.cmpZp (z : Byte) : RoundTrip.Statement (.cmpZp z) := fun wM wX _ =>
  (rfl : decode wM wX [0xC5, z] = .ok (.cmpZp z, []))
theorem RoundTrip.decZp (z : Byte) : RoundTrip.Statement (.decZp z) := fun wM wX _ =>
  (rfl : decode wM wX [0xC6, z] = .ok (.decZp z, []))
theorem RoundTrip.cmpRr (o : Byte) : RoundTrip.Statement (.cmpRr o) := fun wM wX _ =>
  (rfl : decode wM wX [0xC7, o] = .ok (.cmpRr o, []))
theorem RoundTrip.iny : RoundTrip.Statement .iny := fun wM wX _ =>
  (rfl : decode wM wX [0xC8] = .ok (.iny, []))
theorem RoundTrip.cmpImmM (v : Word) : RoundTrip.Statement (.cmpImmM v) := fun wM wX h => by
  cases wM
  · exact (rfl : decode _ _ [0xC9, loByte v] = .ok (.cmpImmM (immOf .w8 (loByte v) 0), [])).trans
      (congrArg (fun u => Except.ok (Instr.cmpImmM u, [])) (immOf_encodeImm .w8 v h))
  · exact (rfl : decode _ _ [0xC9, loByte v, hiByte v] = .ok (.cmpImmM (immOf .w16 (loByte v) (hiByte v)), [])).trans
      (congrArg (fun u => Except.ok (Instr.cmpImmM u, [])) (immOf_encodeImm .w16 v h))
theorem RoundTrip.dex : RoundTrip.Statement .dex := fun wM wX _ =>
  (rfl : decode wM wX [0xCA] = .ok (.dex, []))
theorem RoundTrip.wai : RoundTrip.Statement .wai := fun wM wX _ =>
  (rfl : decode wM wX [0xCB] = .ok (.wai, []))
theorem RoundTrip.cpyAbs (w : Word) : RoundTrip.Statement (.cpyAbs w) := fun wM wX _ =>
  (rfl : decode wM wX [0xCC, loByte w, hiByte w] = .ok (.cpyAbs (mkWord (loByte w) (hiByte w)), [])).trans
    (congrArg (fun u => Except.ok (Instr.cpyAbs u, [])) (mkWord_loByte_hiByte w))
theorem RoundTrip.cmpAbs (w : Word) : RoundTrip.Statement (.cmpAbs w) := fun wM wX _ =>
  (rfl : decode wM wX [0xCD, loByte w, hiByte w] = .ok (.cmpAbs (mkWord (loByte w) (hiByte w)), [])).trans
    (congrArg (fun u => Except.ok (Instr.cmpAbs u, [])) (mkWord_loByte_hiByte w))
theorem RoundTrip.decAbs (w : Word) : RoundTrip.Statement (.decAbs w) := fun wM wX _ =>
  (rfl : decode wM wX [0xCE, loByte w, hiByte w] = .ok (.decAbs (mkWord (loByte w) (hiByte w)), [])).trans
    (congrArg (fun u => Except.ok (Instr.decAbs u, [])) (mkWord_loByte_hiByte w))
theorem RoundTrip.pld : RoundTrip.Statement .pld := fun wM wX _ =>
  (rfl : decode wM wX [0xCF] = .ok (.pld, []))
theorem RoundTrip.bne (b : Byte) : RoundTrip.Statement (.bne b) := fun wM wX _ =>
  (rfl : decode wM wX [0xD0, b] = .ok (.bne b, []))
theorem RoundTrip.cmpIzpY (z : Byte) : RoundTrip.Statement (.cmpIzpY z) := fun wM wX _ =>
  (rfl : decode wM wX [0xD1, z] = .ok (.cmpIzpY z, []))
theorem RoundTrip.cmpIzp (z : Byte) : RoundTrip.Statement (.cmpIzp z) := fun wM wX _ =>
  (rfl : decode wM wX [0xD2, z] = .ok (.cmpIzp z, []))
theorem RoundTrip.cmpIsrY (o : Byte) : RoundTrip.Statement (.cmpIsrY o) := fun wM wX _ =>
  (rfl : decode wM wX [0xD3, o] = .ok (.cmpIsrY o, []))
theorem RoundTrip.pei (z : Byte) : RoundTrip.Statement (.pei z) := fun wM wX _ =>
  (rfl : decode wM wX [0xD4, z] = .ok (.pei z, []))
theorem RoundTrip.cmpZpX (z : Byte) : RoundTrip.Statement (.cmpZpX z) := fun wM wX _ =>
  (rfl : decode wM wX [0xD5, z] = .ok (.cmpZpX z, []))
theorem RoundTrip.decZpX (z : Byte) : RoundTrip.Statement (.decZpX z) := fun wM wX _ =>
  (rfl : decode wM wX [0xD6, z] = .ok (.decZpX z, []))
theorem RoundTrip.cmpIrrY (o : Byte) : RoundTrip.Statement (.cmpIrrY o) := fun wM wX _ =>
  (rfl : decode wM wX [0xD7, o] = .ok (.cmpIrrY o, []))
theorem RoundTrip.cld : RoundTrip.Statement .cld := fun wM wX _ =>
  (rfl : decode wM wX [0xD8] = .ok (.cld, []))
theorem RoundTrip.cmpAbsY (w : Word) : RoundTrip.Statement (.cmpAbsY w) := fun wM wX _ =>
  (rfl : decode wM wX [0xD9, loByte w, hiByte w] = .ok (.cmpAbsY (mkWord (loByte w) (hiByte w)), [])).trans
    (congrArg (fun u => Except.ok (Instr.cmpAbsY u, [])) (mkWord_loByte_hiByte w))
theorem RoundTrip.phx : RoundTrip.Statement .phx := fun wM wX _ =>
  (rfl : decode wM wX [0xDA] = .ok (.phx, []))
theorem RoundTrip.stp : RoundTrip.Statement .stp := fun wM wX _ =>
  (rfl : decode wM wX [0xDB] = .ok (.stp, []))
theorem RoundTrip.tix : RoundTrip.Statement .tix := fun wM wX _ =>
  (rfl : decode wM wX [0xDC] = .ok (.tix, []))
theorem RoundTrip.cmpAbsX (w : Word) : RoundTrip.Statement (.cmpAbsX w) := fun wM wX _ =>
  (rfl : decode wM wX [0xDD, loByte w, hiByte w] = .ok (.cmpAbsX (mkWord (loByte w) (hiByte w)), [])).trans
    (congrArg (fun u => Except.ok (Instr.cmpAbsX u, [])) (mkWord_loByte_hiByte w))
theorem RoundTrip.decAbsX (w : Word) : RoundTrip.Statement (.decAbsX w) := fun wM wX _ =>
  (rfl : decode wM wX [0xDE, loByte w, hiByte w] = .ok (.decAbsX (mkWord (loByte w) (hiByte w)), [])).trans
    (congrArg (fun u => Except.ok (Instr.decAbsX u, [])) (mkWord_loByte_hiByte w))
theorem RoundTrip.phd : RoundTrip.Statement .phd := fun wM wX _ =>
  (rfl : decode wM wX [0xDF] = .ok (.phd, []))
theorem RoundTrip.cpxImmX (v : Word) : RoundTrip.Statement (.cpxImmX v) := fun wM wX h => by
  cases wX
  · exact (rfl : decode _ _ [0xE0, loByte v] = .ok (.cpxImmX (immOf .w8 (loByte v) 0), [])).trans
      (congrArg (fun u => Except.ok (Instr.cpxImmX u, [])) (immOf_encodeImm .w8 v h))
  · exact (rfl : decode _ _ [0xE0, loByte v, hiByte v] = .ok (.cpxImmX (immOf .w16 (loByte v) (hiByte v)), [])).trans
      (congrArg (fun u => Except.ok (Instr.cpxImmX u, [])) (immOf_encodeImm .w16 v h))
theorem RoundTrip.sbcIzpX (z : Byte) : RoundTrip.Statement (.sbcIzpX z) := fun wM wX _ =>
  (rfl : decode wM wX [0xE1, z] = .ok (.sbcIzpX z, []))
theorem RoundTrip.sep (k : Byte) : RoundTrip.Statement (.sep k) := fun wM wX _ =>
  (rfl : decode wM wX [0xE2, k] = .ok (.sep k, []))
theorem RoundTrip.sbcSr (o : Byte) : RoundTrip.Statement (.sbcSr o) := fun wM wX _ =>
  (rfl : decode wM wX [0xE3, o] = .ok (.sbcSr o, []))
theorem RoundTrip.cpxZp (z : Byte) : RoundTrip.Statement (.cpxZp z) := fun wM wX _ =>
  (rfl : decode wM wX [0xE4, z] = .ok (.cpxZp z, []))
theorem RoundTrip.sbcZp (z : Byte) : RoundTrip.Statement (.sbcZp z) := fun wM wX _ =>
  (rfl : decode wM wX [0xE5, z] = .ok (.sbcZp z, []))
theorem RoundTrip.incZp (z : Byte) : RoundTrip.Statement (.incZp z) := fun wM wX _ =>
  (rfl : decode wM wX [0xE6, z] = .ok (.incZp z, []))
theorem RoundTrip.sbcRr (o : Byte) : RoundTrip.Statement (.sbcRr o) := fun wM wX _ =>
  (rfl : decode wM wX [0xE7, o] = .ok (.sbcRr o, []))
theorem RoundTrip.inx : RoundTrip.Statement .inx := fun wM wX _ =>
  (rfl : decode wM wX [0xE8] = .ok (.inx, []))
theorem RoundTrip.sbcImmM (v : Word) : RoundTrip.Statement (.sbcImmM v) := fun wM wX h => by
  cases wM
  · exact (rfl : decode _ _ [0xE9, loByte v] = .ok (.sbcImmM (immOf .w8 (loByte v) 0), [])).trans
      (congrArg (fun u => Except.ok (Instr.sbcImmM u, [])) (immOf_encodeImm .w8 v h))
  · exact (rfl : decode _ _ [0xE9, loByte v, hiByte v] = .ok (.sbcImmM (immOf .w16 (loByte v) (hiByte v)), [])).trans
      (congrArg (fun u => Except.ok (Instr.sbcImmM u, [])) (immOf_encodeImm .w16 v h))
theorem RoundTrip.nop : RoundTrip.Statement .nop := fun wM wX _ =>
  (rfl : decode wM wX [0xEA] = .ok (.nop, []))
theorem RoundTrip.xba : RoundTrip.Statement .xba := fun wM wX _ =>
  (rfl : decode wM wX [0xEB] = .ok (.xba, []))
theorem RoundTrip.cpxAbs (w : Word) : RoundTrip.Statement (.cpxAbs w) := fun wM wX _ =>
  (rfl : decode wM wX [0xEC, loByte w, hiByte w] = .ok (.cpxAbs (mkWord (loByte w) (hiByte w)), [])).trans
    (congrArg (fun u => Except.ok (Instr.cpxAbs u, [])) (mkWord_loByte_hiByte w))
theorem RoundTrip.sbcAbs (w : Word) : RoundTrip.Statement (.sbcAbs w) := fun wM wX _ =>
  (rfl : decode wM wX [0xED, loByte w, hiByte w] = .ok (.sbcAbs (mkWord (loByte w) (hiByte w)), [])).trans
    (congrArg (fun u => Except.ok (Instr.sbcAbs u, [])) (mkWord_loByte_hiByte w))
theorem RoundTrip.incAbs (w : Word) : RoundTrip.Statement (.incAbs w) := fun wM wX _ =>
  (rfl : decode wM wX [0xEE, loByte w, hiByte w] = .ok (.incAbs (mkWord (loByte w) (hiByte w)), [])).trans
    (congrArg (fun u => Except.ok (Instr.incAbs u, [])) (mkWord_loByte_hiByte w))
theorem RoundTrip.mmu (k : Byte) : RoundTrip.Statement (.mmu k) := fun wM wX _ =>
  (rfl : decode wM wX [0xEF, k] = .ok (.mmu k, []))
theorem RoundTrip.beq (b : Byte) : RoundTrip.Statement (.beq b) := fun wM wX _ =>
  (rfl : decode wM wX [0xF0, b] = .ok (.beq b, []))
theorem RoundTrip.sbcIzpY (z : Byte) : RoundTrip.Statement (.sbcIzpY z) := fun wM wX _ =>
  (rfl : decode wM wX [0xF1, z] = .ok (.sbcIzpY z, []))
theorem RoundTrip.sbcIzp (z : Byte) : RoundTrip.Statement (.sbcIzp z) := fun wM wX _ =>
  (rfl : decode wM wX [0xF2, z] = .ok (.sbcIzp z, []))
theorem RoundTrip.sbcIsrY (o : Byte) : RoundTrip.Statement (.sbcIsrY o) := fun wM wX _ =>
  (rfl : decode wM wX [0xF3, o] = .ok (.sbcIsrY o, []))
theorem RoundTrip.pea (w : Word) : RoundTrip.Statement (.pea w) := fun wM wX _ =>
  (rfl : decode wM wX [0xF4, loByte w, hiByte w] = .ok (.pea (mkWord (loByte w) (hiByte w)), [])).trans
    (congrArg (fun u => Except.ok (Instr.pea u, [])) (mkWord_loByte_hiByte w))
theorem RoundTrip.sbcZpX (z : Byte) : RoundTrip.Statement (.sbcZpX z) := fun wM wX _ =>
  (rfl : decode wM wX [0xF5, z] = .ok (.sbcZpX z, []))
theorem RoundTrip.incZpX (z : Byte) : RoundTrip.Statement (.incZpX z) := fun wM wX _ =>
  (rfl : decode wM wX [0xF6, z] = .ok (.incZpX z, []))
theorem RoundTrip.sbcIrrY (o : Byte) : RoundTrip.Statement (.sbcIrrY o) := fun wM wX _ =>
  (rfl : decode wM wX [0xF7, o] = .ok (.sbcIrrY o, []))
theorem RoundTrip.sed : RoundTrip.Statement .sed := fun wM wX _ =>
  (rfl : decode wM wX [0xF8] = .ok (.sed, []))
theorem RoundTrip.sbcAbsY (w : Word) : RoundTrip.Statement (.sbcAbsY w) := fun wM wX _ =>
  (rfl : decode wM wX [0xF9, loByte w, hiByte w] = .ok (.sbcAbsY (mkWord (loByte w) (hiByte w)), [])).trans
    (congrArg (fun u => Except.ok (Instr.sbcAbsY u, [])) (mkWord_loByte_hiByte w))
theorem RoundTrip.plx : RoundTrip.Statement .plx := fun wM wX _ =>
  (rfl : decode wM wX [0xFA] = .ok (.plx, []))
theorem RoundTrip.xce : RoundTrip.Statement .xce := fun wM wX _ =>
  (rfl : decode wM wX [0xFB] = .ok (.xce, []))
theorem RoundTrip.jsrIabsX (w : Word) : RoundTrip.Statement (.jsrIabsX w) := fun wM wX _ =>
  (rfl : decode wM wX [0xFC, loByte w, hiByte w] = .ok (.jsrIabsX (mkWord (loByte w) (hiByte w)), [])).trans
    (congrArg (fun u => Except.ok (Instr.jsrIabsX u, [])) (mkWord_loByte_hiByte w))
theorem RoundTrip.sbcAbsX (w : Word) : RoundTrip.Statement (.sbcAbsX w) := fun wM wX _ =>
  (rfl : decode wM wX [0xFD, loByte w, hiByte w] = .ok (.sbcAbsX (mkWord (loByte w) (hiByte w)), [])).trans
    (congrArg (fun u => Except.ok (Instr.sbcAbsX u, [])) (mkWord_loByte_hiByte w))
theorem RoundTrip.incAbsX (w : Word) : RoundTrip.Statement (.incAbsX w) := fun wM wX _ =>
  (rfl : decode wM wX [0xFE, loByte w, hiByte w] = .ok (.incAbsX (mkWord (loByte w) (hiByte w)), [])).trans
    (congrArg (fun u => Except.ok (Instr.incAbsX u, [])) (mkWord_loByte_hiByte w))
theorem RoundTrip.illegal : RoundTrip.Statement .illegal := fun wM wX _ =>
  (rfl : decode wM wX [0xFF] = .ok (.illegal, []))

end Laws

end Sys2Proof
end

