-- ==== Sys2Proof/Laws/Encoding.lean ====
section
/-! SUPPORT. The opcode map read the other way: what the decoder makes of an opcode byte, and how rows of the opcode table
are told from it. -/

namespace Sys2Proof

@[simp] theorem loByte_mkWord (lo hi : Byte) : loByte (mkWord lo hi) = lo := by
  unfold loByte mkWord
  ext i h
  simp only [BitVec.getElem_setWidth, BitVec.getLsbD_append]
  simp [h]

@[simp] theorem hiByte_mkWord (lo hi : Byte) : hiByte (mkWord lo hi) = hi := by
  unfold hiByte mkWord
  ext i h
  simp only [BitVec.getElem_setWidth, BitVec.getLsbD_ushiftRight, BitVec.getLsbD_append]
  simp [BitVec.getLsbD_eq_getElem h]

@[simp] theorem loByte_zext (b : Byte) : loByte (zext b) = b := by
  unfold loByte zext
  ext i h
  simp

/-- A statement about every byte is a statement about 256 numbers. -/
theorem byte_cases {P : Byte → Prop} (h : ∀ n, n < 256 → P (BitVec.ofNat 8 n)) (b : Byte) : P b := by
  have := h b.toNat b.isLt
  rwa [BitVec.ofNat_toNat, BitVec.setWidth_eq] at this

/-- The instruction of an opcode byte has that opcode. -/
theorem opcode_instrOf (wM wX : Width) (b1 b2 : Byte) : ∀ op : Byte, (instrOf wM wX op b1 b2).opcode = op := by
  refine byte_cases fun n hn => ?_
  interval_cases n <;> rfl

/-- The immediate read at a width fits it. -/
theorem fits_immOf (w : Width) (b1 b2 : Byte) : w.fits (immOf w b1 b2) = true := by
  cases w with
  | w8 =>
    have h1 := b1.isLt
    refine decide_eq_true (?_ : (BitVec.setWidth 16 b1).toNat < 2 ^ 8)
    rw [BitVec.toNat_setWidth]
    omega
  | w16 => exact decide_eq_true (mkWord b1 b2).isLt

/-- What the decoder makes of bytes is well-formed. -/
theorem wf_instrOf (wM wX : Width) (b1 b2 : Byte) : ∀ op : Byte, (instrOf wM wX op b1 b2).wf wM wX = true := by
  refine byte_cases fun n hn => ?_
  interval_cases n <;> first | rfl | exact fits_immOf _ b1 b2

theorem encodeImm_immOf (w : Width) (b1 b2 : Byte) : encodeImm w (immOf w b1 b2) = [b1, b2].take w.bytes := by
  cases w <;> simp [encodeImm, immOf, Width.bytes]

/-- What the decoder makes of an opcode byte and two more is encoded in as many of them as its length says. -/
theorem encode_instrOf (wM wX : Width) (b1 b2 : Byte) :
    ∀ op : Byte, encode wM wX (instrOf wM wX op b1 b2) = [op, b1, b2].take (opcodeLength wM wX op) := by
  have hw : [loByte (mkWord b1 b2), hiByte (mkWord b1 b2)] = [b1, b2] := by simp
  have hm := encodeImm_immOf wM b1 b2
  have hx := encodeImm_immOf wX b1 b2
  refine byte_cases fun n hn => ?_
  interval_cases n <;>
    first
    | rfl
    | exact congrArg (List.cons _) hw
    | (cases wM <;> exact congrArg (List.cons _) hm)
    | (cases wX <;> exact congrArg (List.cons _) hx)

/-- The operation and the addressing mode of an instruction are told from its opcode. -/
theorem op_mode_of_opcode (i : Instr) :
    (instrOf .w8 .w8 i.opcode 0 0).op = i.op ∧ (instrOf .w8 .w8 i.opcode 0 0).operand.mode = i.operand.mode := by
  cases i <;> simp only [Instr.opcode] <;> exact ⟨rfl, rfl⟩

/-- The rows of an operation, checked over the 256 opcode bytes. -/
theorem rowsOf_of_opcodes {op : Op} {rows : List (Byte × Mode)}
    (h : ∀ b : Byte, (instrOf .w8 .w8 b 0 0).op = op ↔ (b, (instrOf .w8 .w8 b 0 0).operand.mode) ∈ rows) :
    RowsOf op rows := by
  intro i
  have := h i.opcode
  rwa [(op_mode_of_opcode i).1, (op_mode_of_opcode i).2] at this

/-- Bytes after an instruction do not change how it is decoded. -/
theorem decode_append {wM wX : Width} {bytes left : List Byte} {i : Instr} (h : decode wM wX bytes = .ok (i, left))
    (rest : List Byte) : decode wM wX (bytes ++ rest) = .ok (i, left ++ rest) := by
  unfold decode at h
  split at h
  · cases h
  · split at h <;> cases h <;> rename_i hl <;> rw [List.cons_append] <;> unfold decode <;> simp only [hl] <;> rfl

end Sys2Proof
end

