-- ==== Sys2Proof/Laws/Memory.lean ====
section
/-! SUPPORT. Memory: a read after a write, and the canonical form that every write keeps. -/

namespace Sys2Proof.Machine

theorem Memory.wfFrom_cons {lo a : Nat} {v : Byte} {t : List Host.Cell} :
    Memory.wfFrom lo ((a, v) :: t) = true ↔
      lo ≤ a ∧ a < 65536 ∧ v ≠ Config.ramInit ∧ Memory.wfFrom (a + 1) t = true := by
  simp [Memory.wfFrom, and_assoc]

theorem Memory.wfFrom_mono {lo lo' : Nat} {m : List Host.Cell} (h : Memory.wfFrom lo m = true) (hl : lo' ≤ lo) :
    Memory.wfFrom lo' m = true := by
  cases m with
  | nil => rfl
  | cons c t => obtain ⟨a, v⟩ := c; rw [Memory.wfFrom_cons] at h ⊢; exact ⟨by omega, h.2⟩

/-- Below its first listed address, memory reads as nothing had been written. -/
theorem Memory.read_below {lo k : Nat} {m : List Host.Cell} (h : Memory.wfFrom lo m = true) (hk : k < lo) :
    Memory.read m k = Config.ramInit := by
  induction m generalizing lo with
  | nil => rfl
  | cons c t ih =>
    obtain ⟨a, v⟩ := c
    rw [Memory.wfFrom_cons] at h
    rw [Memory.read, if_neg (by omega), ih h.2.2.2 (by omega)]

theorem Memory.wfFrom_write {lo k : Nat} {m : List Host.Cell} (v : Byte) (h : Memory.wfFrom lo m = true) (hl : lo ≤ k)
    (hk : k < 65536) : Memory.wfFrom lo (Memory.write m k v) = true := by
  induction m generalizing lo with
  | nil =>
    rw [Memory.write]
    split
    · rfl
    · rename_i hv; rw [Memory.wfFrom_cons]; exact ⟨hl, hk, hv, rfl⟩
  | cons c t ih =>
    obtain ⟨a, u⟩ := c
    have h' := Memory.wfFrom_cons.1 h
    obtain ⟨h1, h2, h3, h4⟩ := h'
    rw [Memory.write]
    split
    · rw [Memory.wfFrom_cons]; exact ⟨h1, h2, h3, ih h4 (by omega)⟩
    · split
      · split
        · exact Memory.wfFrom_mono h4 (by omega)
        · rename_i hv; rw [Memory.wfFrom_cons]; exact ⟨hl, hk, hv, Memory.wfFrom_mono h4 (by omega)⟩
      · split
        · exact h
        · rename_i hv; rw [Memory.wfFrom_cons, Memory.wfFrom_cons]; exact ⟨hl, hk, hv, by omega, h2, h3, h4⟩

/-- A write keeps the canonical form. -/
theorem Memory.wf_write {m : List Host.Cell} (a : Word) (v : Byte) (h : Memory.wf m = true) :
    Memory.wf (Memory.write m a.toNat v) = true :=
  Memory.wfFrom_write v h (Nat.zero_le _) a.isLt

theorem Memory.read_write_from {lo k : Nat} {m : List Host.Cell} (v : Byte) (h : Memory.wfFrom lo m = true) (j : Nat) :
    Memory.read (Memory.write m k v) j = if j = k then v else Memory.read m j := by
  induction m generalizing lo with
  | nil =>
    rw [Memory.write]
    split
    · rename_i hv; subst hv; simp [Memory.read]
    · simp [Memory.read, eq_comm]
  | cons c t ih =>
    obtain ⟨a, u⟩ := c
    obtain ⟨h1, h2, h3, h4⟩ := Memory.wfFrom_cons.1 h
    rw [Memory.write]
    by_cases hak : a < k
    · rw [if_pos hak, Memory.read, Memory.read, ih h4]
      split <;> split <;> first | rfl | omega
    · rw [if_neg hak]
      by_cases he : a = k
      · subst he
        have hr : j = a → Memory.read t j = Config.ramInit := fun hj => Memory.read_below h4 (by omega)
        rw [if_pos rfl]
        split <;> simp only [Memory.read] <;> grind
      · have hr : j = k → Memory.read t j = Config.ramInit := fun hj => Memory.read_below h4 (by omega)
        rw [if_neg he]
        split <;> simp only [Memory.read] <;> grind

/-- A read after a write gives the value at the address written, and what was there elsewhere. -/
theorem Memory.read_write {m : List Host.Cell} (h : Memory.wf m = true) (a b : Word) (v : Byte) :
    Memory.read (Memory.write m a.toNat v) b.toNat = if b = a then v else Memory.read m b.toNat := by
  rw [Memory.read_write_from v h]
  simp [BitVec.toNat_eq]

end Sys2Proof.Machine
end

