-- ==== Sys2Proof/Laws/State.lean ====
section
/-! SUPPORT. What each named update of the state does to each field, and what it does not. -/

namespace Sys2Proof.Machine

/-- `SetP` as one update of the state (10_state.md R44). -/
theorem State.setP_eq (s : State) (v : Byte) : s.setP v =
    { s with
      fN := v.getLsbD 7, fV := v.getLsbD 6, fD := v.getLsbD 3, fI := v.getLsbD 2, fZ := v.getLsbD 1, fC := v.getLsbD 0,
      fB := if s.fE then v.getLsbD 4 else s.fB, fM := if s.fE then s.fM else v.getLsbD 5,
      fX := if s.fE then s.fX else v.getLsbD 4, x := if !s.fE && v.getLsbD 4 then cut .w8 s.x else s.x,
      y := if !s.fE && v.getLsbD 4 then cut .w8 s.y else s.y } := by
  unfold State.setP State.cutIndex
  cases s.fE
  · cases v.getLsbD 4 <;> rfl
  · rfl

@[simp] theorem State.setAcc_al (s : State) (w : Width) (v : Word) : (s.setAcc w v).al = loByte v := by cases w <;> rfl
@[simp] theorem State.setAcc_ah (s : State) (w : Width) (v : Word) : (s.setAcc w v).ah = (match w with | .w8 => s.ah | .w16 => hiByte v) := by cases w <;> rfl
@[simp] theorem State.setAcc_x (s : State) (w : Width) (v : Word) : (s.setAcc w v).x = s.x := by cases w <;> rfl
@[simp] theorem State.setAcc_y (s : State) (w : Width) (v : Word) : (s.setAcc w v).y = s.y := by cases w <;> rfl
@[simp] theorem State.setAcc_sp (s : State) (w : Width) (v : Word) : (s.setAcc w v).sp = s.sp := by cases w <;> rfl
@[simp] theorem State.setAcc_r (s : State) (w : Width) (v : Word) : (s.setAcc w v).r = s.r := by cases w <;> rfl
@[simp] theorem State.setAcc_pc (s : State) (w : Width) (v : Word) : (s.setAcc w v).pc = s.pc := by cases w <;> rfl
@[simp] theorem State.setAcc_i (s : State) (w : Width) (v : Word) : (s.setAcc w v).i = s.i := by cases w <;> rfl
@[simp] theorem State.setAcc_d (s : State) (w : Width) (v : Word) : (s.setAcc w v).d = s.d := by cases w <;> rfl
@[simp] theorem State.setAcc_por (s : State) (w : Width) (v : Word) : (s.setAcc w v).por = s.por := by cases w <;> rfl
@[simp] theorem State.setAcc_brkv (s : State) (w : Width) (v : Word) : (s.setAcc w v).brkv = s.brkv := by cases w <;> rfl
@[simp] theorem State.setAcc_fC (s : State) (w : Width) (v : Word) : (s.setAcc w v).fC = s.fC := by cases w <;> rfl
@[simp] theorem State.setAcc_fZ (s : State) (w : Width) (v : Word) : (s.setAcc w v).fZ = s.fZ := by cases w <;> rfl
@[simp] theorem State.setAcc_fN (s : State) (w : Width) (v : Word) : (s.setAcc w v).fN = s.fN := by cases w <;> rfl
@[simp] theorem State.setAcc_fV (s : State) (w : Width) (v : Word) : (s.setAcc w v).fV = s.fV := by cases w <;> rfl
@[simp] theorem State.setAcc_fI (s : State) (w : Width) (v : Word) : (s.setAcc w v).fI = s.fI := by cases w <;> rfl
@[simp] theorem State.setAcc_fD (s : State) (w : Width) (v : Word) : (s.setAcc w v).fD = s.fD := by cases w <;> rfl
@[simp] theorem State.setAcc_fB (s : State) (w : Width) (v : Word) : (s.setAcc w v).fB = s.fB := by cases w <;> rfl
@[simp] theorem State.setAcc_fE (s : State) (w : Width) (v : Word) : (s.setAcc w v).fE = s.fE := by cases w <;> rfl
@[simp] theorem State.setAcc_fM (s : State) (w : Width) (v : Word) : (s.setAcc w v).fM = s.fM := by cases w <;> rfl
@[simp] theorem State.setAcc_fX (s : State) (w : Width) (v : Word) : (s.setAcc w v).fX = s.fX := by cases w <;> rfl
@[simp] theorem State.setAcc_rbEnabled (s : State) (w : Width) (v : Word) : (s.setAcc w v).rbEnabled = s.rbEnabled := by cases w <;> rfl
@[simp] theorem State.setAcc_rbSlot (s : State) (w : Width) (v : Word) : (s.setAcc w v).rbSlot = s.rbSlot := by cases w <;> rfl
@[simp] theorem State.setAcc_rbWindow (s : State) (w : Width) (v : Word) : (s.setAcc w v).rbWindow = s.rbWindow := by cases w <;> rfl
@[simp] theorem State.setAcc_rbAuxWin (s : State) (w : Width) (v : Word) : (s.setAcc w v).rbAuxWin = s.rbAuxWin := by cases w <;> rfl
@[simp] theorem State.setAcc_rbAuxEn (s : State) (w : Width) (v : Word) : (s.setAcc w v).rbAuxEn = s.rbAuxEn := by cases w <;> rfl
@[simp] theorem State.setAcc_rbBind (s : State) (w : Width) (v : Word) : (s.setAcc w v).rbBind = s.rbBind := by cases w <;> rfl
@[simp] theorem State.setAcc_trap (s : State) (w : Width) (v : Word) : (s.setAcc w v).trap = s.trap := by cases w <;> rfl
@[simp] theorem State.setAcc_irq (s : State) (w : Width) (v : Word) : (s.setAcc w v).irq = s.irq := by cases w <;> rfl
@[simp] theorem State.setAcc_nmi (s : State) (w : Width) (v : Word) : (s.setAcc w v).nmi = s.nmi := by cases w <;> rfl
@[simp] theorem State.setAcc_waiting (s : State) (w : Width) (v : Word) : (s.setAcc w v).waiting = s.waiting := by cases w <;> rfl
@[simp] theorem State.setAcc_halted (s : State) (w : Width) (v : Word) : (s.setAcc w v).halted = s.halted := by cases w <;> rfl
@[simp] theorem State.setAcc_steps (s : State) (w : Width) (v : Word) : (s.setAcc w v).steps = s.steps := by cases w <;> rfl
@[simp] theorem State.setAcc_tokens (s : State) (w : Width) (v : Word) : (s.setAcc w v).tokens = s.tokens := by cases w <;> rfl
@[simp] theorem State.setAcc_running (s : State) (w : Width) (v : Word) : (s.setAcc w v).running = s.running := by cases w <;> rfl
@[simp] theorem State.setAcc_logInstalled (s : State) (w : Width) (v : Word) : (s.setAcc w v).logInstalled = s.logInstalled := by cases w <;> rfl
@[simp] theorem State.setAcc_wasReset (s : State) (w : Width) (v : Word) : (s.setAcc w v).wasReset = s.wasReset := by cases w <;> rfl
@[simp] theorem State.setAcc_params (s : State) (w : Width) (v : Word) : (s.setAcc w v).params = s.params := by cases w <;> rfl
@[simp] theorem State.setAcc_devices (s : State) (w : Width) (v : Word) : (s.setAcc w v).devices = s.devices := by cases w <;> rfl
@[simp] theorem State.setAcc_mem (s : State) (w : Width) (v : Word) : (s.setAcc w v).mem = s.mem := by cases w <;> rfl
@[simp] theorem State.setAcc_events (s : State) (w : Width) (v : Word) : (s.setAcc w v).events = s.events := by cases w <;> rfl

@[simp] theorem State.setX_al (s : State) (w : Width) (v : Word) : (s.setX w v).al = s.al := rfl
@[simp] theorem State.setX_ah (s : State) (w : Width) (v : Word) : (s.setX w v).ah = s.ah := rfl
@[simp] theorem State.setX_x (s : State) (w : Width) (v : Word) : (s.setX w v).x = cut w v := rfl
@[simp] theorem State.setX_y (s : State) (w : Width) (v : Word) : (s.setX w v).y = s.y := rfl
@[simp] theorem State.setX_sp (s : State) (w : Width) (v : Word) : (s.setX w v).sp = s.sp := rfl
@[simp] theorem State.setX_r (s : State) (w : Width) (v : Word) : (s.setX w v).r = s.r := rfl
@[simp] theorem State.setX_pc (s : State) (w : Width) (v : Word) : (s.setX w v).pc = s.pc := rfl
@[simp] theorem State.setX_i (s : State) (w : Width) (v : Word) : (s.setX w v).i = s.i := rfl
@[simp] theorem State.setX_d (s : State) (w : Width) (v : Word) : (s.setX w v).d = s.d := rfl
@[simp] theorem State.setX_por (s : State) (w : Width) (v : Word) : (s.setX w v).por = s.por := rfl
@[simp] theorem State.setX_brkv (s : State) (w : Width) (v : Word) : (s.setX w v).brkv = s.brkv := rfl
@[simp] theorem State.setX_fC (s : State) (w : Width) (v : Word) : (s.setX w v).fC = s.fC := rfl
@[simp] theorem State.setX_fZ (s : State) (w : Width) (v : Word) : (s.setX w v).fZ = s.fZ := rfl
@[simp] theorem State.setX_fN (s : State) (w : Width) (v : Word) : (s.setX w v).fN = s.fN := rfl
@[simp] theorem State.setX_fV (s : State) (w : Width) (v : Word) : (s.setX w v).fV = s.fV := rfl
@[simp] theorem State.setX_fI (s : State) (w : Width) (v : Word) : (s.setX w v).fI = s.fI := rfl
@[simp] theorem State.setX_fD (s : State) (w : Width) (v : Word) : (s.setX w v).fD = s.fD := rfl
@[simp] theorem State.setX_fB (s : State) (w : Width) (v : Word) : (s.setX w v).fB = s.fB := rfl
@[simp] theorem State.setX_fE (s : State) (w : Width) (v : Word) : (s.setX w v).fE = s.fE := rfl
@[simp] theorem State.setX_fM (s : State) (w : Width) (v : Word) : (s.setX w v).fM = s.fM := rfl
@[simp] theorem State.setX_fX (s : State) (w : Width) (v : Word) : (s.setX w v).fX = s.fX := rfl
@[simp] theorem State.setX_rbEnabled (s : State) (w : Width) (v : Word) : (s.setX w v).rbEnabled = s.rbEnabled := rfl
@[simp] theorem State.setX_rbSlot (s : State) (w : Width) (v : Word) : (s.setX w v).rbSlot = s.rbSlot := rfl
@[simp] theorem State.setX_rbWindow (s : State) (w : Width) (v : Word) : (s.setX w v).rbWindow = s.rbWindow := rfl
@[simp] theorem State.setX_rbAuxWin (s : State) (w : Width) (v : Word) : (s.setX w v).rbAuxWin = s.rbAuxWin := rfl
@[simp] theorem State.setX_rbAuxEn (s : State) (w : Width) (v : Word) : (s.setX w v).rbAuxEn = s.rbAuxEn := rfl
@[simp] theorem State.setX_rbBind (s : State) (w : Width) (v : Word) : (s.setX w v).rbBind = s.rbBind := rfl
@[simp] theorem State.setX_trap (s : State) (w : Width) (v : Word) : (s.setX w v).trap = s.trap := rfl
@[simp] theorem State.setX_irq (s : State) (w : Width) (v : Word) : (s.setX w v).irq = s.irq := rfl
@[simp] theorem State.setX_nmi (s : State) (w : Width) (v : Word) : (s.setX w v).nmi = s.nmi := rfl
@[simp] theorem State.setX_waiting (s : State) (w : Width) (v : Word) : (s.setX w v).waiting = s.waiting := rfl
@[simp] theorem State.setX_halted (s : State) (w : Width) (v : Word) : (s.setX w v).halted = s.halted := rfl
@[simp] theorem State.setX_steps (s : State) (w : Width) (v : Word) : (s.setX w v).steps = s.steps := rfl
@[simp] theorem State.setX_tokens (s : State) (w : Width) (v : Word) : (s.setX w v).tokens = s.tokens := rfl
@[simp] theorem State.setX_running (s : State) (w : Width) (v : Word) : (s.setX w v).running = s.running := rfl
@[simp] theorem State.setX_logInstalled (s : State) (w : Width) (v : Word) : (s.setX w v).logInstalled = s.logInstalled := rfl
@[simp] theorem State.setX_wasReset (s : State) (w : Width) (v : Word) : (s.setX w v).wasReset = s.wasReset := rfl
@[simp] theorem State.setX_params (s : State) (w : Width) (v : Word) : (s.setX w v).params = s.params := rfl
@[simp] theorem State.setX_devices (s : State) (w : Width) (v : Word) : (s.setX w v).devices = s.devices := rfl
@[simp] theorem State.setX_mem (s : State) (w : Width) (v : Word) : (s.setX w v).mem = s.mem := rfl
@[simp] theorem State.setX_events (s : State) (w : Width) (v : Word) : (s.setX w v).events = s.events := rfl

@[simp] theorem State.setY_al (s : State) (w : Width) (v : Word) : (s.setY w v).al = s.al := rfl
@[simp] theorem State.setY_ah (s : State) (w : Width) (v : Word) : (s.setY w v).ah = s.ah := rfl
@[simp] theorem State.setY_x (s : State) (w : Width) (v : Word) : (s.setY w v).x = s.x := rfl
@[simp] theorem State.setY_y (s : State) (w : Width) (v : Word) : (s.setY w v).y = cut w v := rfl
@[simp] theorem State.setY_sp (s : State) (w : Width) (v : Word) : (s.setY w v).sp = s.sp := rfl
@[simp] theorem State.setY_r (s : State) (w : Width) (v : Word) : (s.setY w v).r = s.r := rfl
@[simp] theorem State.setY_pc (s : State) (w : Width) (v : Word) : (s.setY w v).pc = s.pc := rfl
@[simp] theorem State.setY_i (s : State) (w : Width) (v : Word) : (s.setY w v).i = s.i := rfl
@[simp] theorem State.setY_d (s : State) (w : Width) (v : Word) : (s.setY w v).d = s.d := rfl
@[simp] theorem State.setY_por (s : State) (w : Width) (v : Word) : (s.setY w v).por = s.por := rfl
@[simp] theorem State.setY_brkv (s : State) (w : Width) (v : Word) : (s.setY w v).brkv = s.brkv := rfl
@[simp] theorem State.setY_fC (s : State) (w : Width) (v : Word) : (s.setY w v).fC = s.fC := rfl
@[simp] theorem State.setY_fZ (s : State) (w : Width) (v : Word) : (s.setY w v).fZ = s.fZ := rfl
@[simp] theorem State.setY_fN (s : State) (w : Width) (v : Word) : (s.setY w v).fN = s.fN := rfl
@[simp] theorem State.setY_fV (s : State) (w : Width) (v : Word) : (s.setY w v).fV = s.fV := rfl
@[simp] theorem State.setY_fI (s : State) (w : Width) (v : Word) : (s.setY w v).fI = s.fI := rfl
@[simp] theorem State.setY_fD (s : State) (w : Width) (v : Word) : (s.setY w v).fD = s.fD := rfl
@[simp] theorem State.setY_fB (s : State) (w : Width) (v : Word) : (s.setY w v).fB = s.fB := rfl
@[simp] theorem State.setY_fE (s : State) (w : Width) (v : Word) : (s.setY w v).fE = s.fE := rfl
@[simp] theorem State.setY_fM (s : State) (w : Width) (v : Word) : (s.setY w v).fM = s.fM := rfl
@[simp] theorem State.setY_fX (s : State) (w : Width) (v : Word) : (s.setY w v).fX = s.fX := rfl
@[simp] theorem State.setY_rbEnabled (s : State) (w : Width) (v : Word) : (s.setY w v).rbEnabled = s.rbEnabled := rfl
@[simp] theorem State.setY_rbSlot (s : State) (w : Width) (v : Word) : (s.setY w v).rbSlot = s.rbSlot := rfl
@[simp] theorem State.setY_rbWindow (s : State) (w : Width) (v : Word) : (s.setY w v).rbWindow = s.rbWindow := rfl
@[simp] theorem State.setY_rbAuxWin (s : State) (w : Width) (v : Word) : (s.setY w v).rbAuxWin = s.rbAuxWin := rfl
@[simp] theorem State.setY_rbAuxEn (s : State) (w : Width) (v : Word) : (s.setY w v).rbAuxEn = s.rbAuxEn := rfl
@[simp] theorem State.setY_rbBind (s : State) (w : Width) (v : Word) : (s.setY w v).rbBind = s.rbBind := rfl
@[simp] theorem State.setY_trap (s : State) (w : Width) (v : Word) : (s.setY w v).trap = s.trap := rfl
@[simp] theorem State.setY_irq (s : State) (w : Width) (v : Word) : (s.setY w v).irq = s.irq := rfl
@[simp] theorem State.setY_nmi (s : State) (w : Width) (v : Word) : (s.setY w v).nmi = s.nmi := rfl
@[simp] theorem State.setY_waiting (s : State) (w : Width) (v : Word) : (s.setY w v).waiting = s.waiting := rfl
@[simp] theorem State.setY_halted (s : State) (w : Width) (v : Word) : (s.setY w v).halted = s.halted := rfl
@[simp] theorem State.setY_steps (s : State) (w : Width) (v : Word) : (s.setY w v).steps = s.steps := rfl
@[simp] theorem State.setY_tokens (s : State) (w : Width) (v : Word) : (s.setY w v).tokens = s.tokens := rfl
@[simp] theorem State.setY_running (s : State) (w : Width) (v : Word) : (s.setY w v).running = s.running := rfl
@[simp] theorem State.setY_logInstalled (s : State) (w : Width) (v : Word) : (s.setY w v).logInstalled = s.logInstalled := rfl
@[simp] theorem State.setY_wasReset (s : State) (w : Width) (v : Word) : (s.setY w v).wasReset = s.wasReset := rfl
@[simp] theorem State.setY_params (s : State) (w : Width) (v : Word) : (s.setY w v).params = s.params := rfl
@[simp] theorem State.setY_devices (s : State) (w : Width) (v : Word) : (s.setY w v).devices = s.devices := rfl
@[simp] theorem State.setY_mem (s : State) (w : Width) (v : Word) : (s.setY w v).mem = s.mem := rfl
@[simp] theorem State.setY_events (s : State) (w : Width) (v : Word) : (s.setY w v).events = s.events := rfl

@[simp] theorem State.cutIndex_al (s : State) : (s.cutIndex).al = s.al := rfl
@[simp] theorem State.cutIndex_ah (s : State) : (s.cutIndex).ah = s.ah := rfl
@[simp] theorem State.cutIndex_x (s : State) : (s.cutIndex).x = cut .w8 s.x := rfl
@[simp] theorem State.cutIndex_y (s : State) : (s.cutIndex).y = cut .w8 s.y := rfl
@[simp] theorem State.cutIndex_sp (s : State) : (s.cutIndex).sp = s.sp := rfl
@[simp] theorem State.cutIndex_r (s : State) : (s.cutIndex).r = s.r := rfl
@[simp] theorem State.cutIndex_pc (s : State) : (s.cutIndex).pc = s.pc := rfl
@[simp] theorem State.cutIndex_i (s : State) : (s.cutIndex).i = s.i := rfl
@[simp] theorem State.cutIndex_d (s : State) : (s.cutIndex).d = s.d := rfl
@[simp] theorem State.cutIndex_por (s : State) : (s.cutIndex).por = s.por := rfl
@[simp] theorem State.cutIndex_brkv (s : State) : (s.cutIndex).brkv = s.brkv := rfl
@[simp] theorem State.cutIndex_fC (s : State) : (s.cutIndex).fC = s.fC := rfl
@[simp] theorem State.cutIndex_fZ (s : State) : (s.cutIndex).fZ = s.fZ := rfl
@[simp] theorem State.cutIndex_fN (s : State) : (s.cutIndex).fN = s.fN := rfl
@[simp] theorem State.cutIndex_fV (s : State) : (s.cutIndex).fV = s.fV := rfl
@[simp] theorem State.cutIndex_fI (s : State) : (s.cutIndex).fI = s.fI := rfl
@[simp] theorem State.cutIndex_fD (s : State) : (s.cutIndex).fD = s.fD := rfl
@[simp] theorem State.cutIndex_fB (s : State) : (s.cutIndex).fB = s.fB := rfl
@[simp] theorem State.cutIndex_fE (s : State) : (s.cutIndex).fE = s.fE := rfl
@[simp] theorem State.cutIndex_fM (s : State) : (s.cutIndex).fM = s.fM := rfl
@[simp] theorem State.cutIndex_fX (s : State) : (s.cutIndex).fX = s.fX := rfl
@[simp] theorem State.cutIndex_rbEnabled (s : State) : (s.cutIndex).rbEnabled = s.rbEnabled := rfl
@[simp] theorem State.cutIndex_rbSlot (s : State) : (s.cutIndex).rbSlot = s.rbSlot := rfl
@[simp] theorem State.cutIndex_rbWindow (s : State) : (s.cutIndex).rbWindow = s.rbWindow := rfl
@[simp] theorem State.cutIndex_rbAuxWin (s : State) : (s.cutIndex).rbAuxWin = s.rbAuxWin := rfl
@[simp] theorem State.cutIndex_rbAuxEn (s : State) : (s.cutIndex).rbAuxEn = s.rbAuxEn := rfl
@[simp] theorem State.cutIndex_rbBind (s : State) : (s.cutIndex).rbBind = s.rbBind := rfl
@[simp] theorem State.cutIndex_trap (s : State) : (s.cutIndex).trap = s.trap := rfl
@[simp] theorem State.cutIndex_irq (s : State) : (s.cutIndex).irq = s.irq := rfl
@[simp] theorem State.cutIndex_nmi (s : State) : (s.cutIndex).nmi = s.nmi := rfl
@[simp] theorem State.cutIndex_waiting (s : State) : (s.cutIndex).waiting = s.waiting := rfl
@[simp] theorem State.cutIndex_halted (s : State) : (s.cutIndex).halted = s.halted := rfl
@[simp] theorem State.cutIndex_steps (s : State) : (s.cutIndex).steps = s.steps := rfl
@[simp] theorem State.cutIndex_tokens (s : State) : (s.cutIndex).tokens = s.tokens := rfl
@[simp] theorem State.cutIndex_running (s : State) : (s.cutIndex).running = s.running := rfl
@[simp] theorem State.cutIndex_logInstalled (s : State) : (s.cutIndex).logInstalled = s.logInstalled := rfl
@[simp] theorem State.cutIndex_wasReset (s : State) : (s.cutIndex).wasReset = s.wasReset := rfl
@[simp] theorem State.cutIndex_params (s : State) : (s.cutIndex).params = s.params := rfl
@[simp] theorem State.cutIndex_devices (s : State) : (s.cutIndex).devices = s.devices := rfl
@[simp] theorem State.cutIndex_mem (s : State) : (s.cutIndex).mem = s.mem := rfl
@[simp] theorem State.cutIndex_events (s : State) : (s.cutIndex).events = s.events := rfl

@[simp] theorem State.setNZ_al (s : State) (w : Width) (v : Word) : (s.setNZ w v).al = s.al := rfl
@[simp] theorem State.setNZ_ah (s : State) (w : Width) (v : Word) : (s.setNZ w v).ah = s.ah := rfl
@[simp] theorem State.setNZ_x (s : State) (w : Width) (v : Word) : (s.setNZ w v).x = s.x := rfl
@[simp] theorem State.setNZ_y (s : State) (w : Width) (v : Word) : (s.setNZ w v).y = s.y := rfl
@[simp] theorem State.setNZ_sp (s : State) (w : Width) (v : Word) : (s.setNZ w v).sp = s.sp := rfl
@[simp] theorem State.setNZ_r (s : State) (w : Width) (v : Word) : (s.setNZ w v).r = s.r := rfl
@[simp] theorem State.setNZ_pc (s : State) (w : Width) (v : Word) : (s.setNZ w v).pc = s.pc := rfl
@[simp] theorem State.setNZ_i (s : State) (w : Width) (v : Word) : (s.setNZ w v).i = s.i := rfl
@[simp] theorem State.setNZ_d (s : State) (w : Width) (v : Word) : (s.setNZ w v).d = s.d := rfl
@[simp] theorem State.setNZ_por (s : State) (w : Width) (v : Word) : (s.setNZ w v).por = s.por := rfl
@[simp] theorem State.setNZ_brkv (s : State) (w : Width) (v : Word) : (s.setNZ w v).brkv = s.brkv := rfl
@[simp] theorem State.setNZ_fC (s : State) (w : Width) (v : Word) : (s.setNZ w v).fC = s.fC := rfl
@[simp] theorem State.setNZ_fZ (s : State) (w : Width) (v : Word) : (s.setNZ w v).fZ = (cut w v == 0) := rfl
@[simp] theorem State.setNZ_fN (s : State) (w : Width) (v : Word) : (s.setNZ w v).fN = topBit w v := rfl
@[simp] theorem State.setNZ_fV (s : State) (w : Width) (v : Word) : (s.setNZ w v).fV = s.fV := rfl
@[simp] theorem State.setNZ_fI (s : State) (w : Width) (v : Word) : (s.setNZ w v).fI = s.fI := rfl
@[simp] theorem State.setNZ_fD (s : State) (w : Width) (v : Word) : (s.setNZ w v).fD = s.fD := rfl
@[simp] theorem State.setNZ_fB (s : State) (w : Width) (v : Word) : (s.setNZ w v).fB = s.fB := rfl
@[simp] theorem State.setNZ_fE (s : State) (w : Width) (v : Word) : (s.setNZ w v).fE = s.fE := rfl
@[simp] theorem State.setNZ_fM (s : State) (w : Width) (v : Word) : (s.setNZ w v).fM = s.fM := rfl
@[simp] theorem State.setNZ_fX (s : State) (w : Width) (v : Word) : (s.setNZ w v).fX = s.fX := rfl
@[simp] theorem State.setNZ_rbEnabled (s : State) (w : Width) (v : Word) : (s.setNZ w v).rbEnabled = s.rbEnabled := rfl
@[simp] theorem State.setNZ_rbSlot (s : State) (w : Width) (v : Word) : (s.setNZ w v).rbSlot = s.rbSlot := rfl
@[simp] theorem State.setNZ_rbWindow (s : State) (w : Width) (v : Word) : (s.setNZ w v).rbWindow = s.rbWindow := rfl
@[simp] theorem State.setNZ_rbAuxWin (s : State) (w : Width) (v : Word) : (s.setNZ w v).rbAuxWin = s.rbAuxWin := rfl
@[simp] theorem State.setNZ_rbAuxEn (s : State) (w : Width) (v : Word) : (s.setNZ w v).rbAuxEn = s.rbAuxEn := rfl
@[simp] theorem State.setNZ_rbBind (s : State) (w : Width) (v : Word) : (s.setNZ w v).rbBind = s.rbBind := rfl
@[simp] theorem State.setNZ_trap (s : State) (w : Width) (v : Word) : (s.setNZ w v).trap = s.trap := rfl
@[simp] theorem State.setNZ_irq (s : State) (w : Width) (v : Word) : (s.setNZ w v).irq = s.irq := rfl
@[simp] theorem State.setNZ_nmi (s : State) (w : Width) (v : Word) : (s.setNZ w v).nmi = s.nmi := rfl
@[simp] theorem State.setNZ_waiting (s : State) (w : Width) (v : Word) : (s.setNZ w v).waiting = s.waiting := rfl
@[simp] theorem State.setNZ_halted (s : State) (w : Width) (v : Word) : (s.setNZ w v).halted = s.halted := rfl
@[simp] theorem State.setNZ_steps (s : State) (w : Width) (v : Word) : (s.setNZ w v).steps = s.steps := rfl
@[simp] theorem State.setNZ_tokens (s : State) (w : Width) (v : Word) : (s.setNZ w v).tokens = s.tokens := rfl
@[simp] theorem State.setNZ_running (s : State) (w : Width) (v : Word) : (s.setNZ w v).running = s.running := rfl
@[simp] theorem State.setNZ_logInstalled (s : State) (w : Width) (v : Word) : (s.setNZ w v).logInstalled = s.logInstalled := rfl
@[simp] theorem State.setNZ_wasReset (s : State) (w : Width) (v : Word) : (s.setNZ w v).wasReset = s.wasReset := rfl
@[simp] theorem State.setNZ_params (s : State) (w : Width) (v : Word) : (s.setNZ w v).params = s.params := rfl
@[simp] theorem State.setNZ_devices (s : State) (w : Width) (v : Word) : (s.setNZ w v).devices = s.devices := rfl
@[simp] theorem State.setNZ_mem (s : State) (w : Width) (v : Word) : (s.setNZ w v).mem = s.mem := rfl
@[simp] theorem State.setNZ_events (s : State) (w : Width) (v : Word) : (s.setNZ w v).events = s.events := rfl

@[simp] theorem State.setP_al (s : State) (v : Byte) : (s.setP v).al = s.al := by rw [State.setP_eq]
@[simp] theorem State.setP_ah (s : State) (v : Byte) : (s.setP v).ah = s.ah := by rw [State.setP_eq]
@[simp] theorem State.setP_x (s : State) (v : Byte) : (s.setP v).x = (if !s.fE && v.getLsbD 4 then cut .w8 s.x else s.x) := by rw [State.setP_eq]
@[simp] theorem State.setP_y (s : State) (v : Byte) : (s.setP v).y = (if !s.fE && v.getLsbD 4 then cut .w8 s.y else s.y) := by rw [State.setP_eq]
@[simp] theorem State.setP_sp (s : State) (v : Byte) : (s.setP v).sp = s.sp := by rw [State.setP_eq]
@[simp] theorem State.setP_r (s : State) (v : Byte) : (s.setP v).r = s.r := by rw [State.setP_eq]
@[simp] theorem State.setP_pc (s : State) (v : Byte) : (s.setP v).pc = s.pc := by rw [State.setP_eq]
@[simp] theorem State.setP_i (s : State) (v : Byte) : (s.setP v).i = s.i := by rw [State.setP_eq]
@[simp] theorem State.setP_d (s : State) (v : Byte) : (s.setP v).d = s.d := by rw [State.setP_eq]
@[simp] theorem State.setP_por (s : State) (v : Byte) : (s.setP v).por = s.por := by rw [State.setP_eq]
@[simp] theorem State.setP_brkv (s : State) (v : Byte) : (s.setP v).brkv = s.brkv := by rw [State.setP_eq]
@[simp] theorem State.setP_fC (s : State) (v : Byte) : (s.setP v).fC = v.getLsbD 0 := by rw [State.setP_eq]
@[simp] theorem State.setP_fZ (s : State) (v : Byte) : (s.setP v).fZ = v.getLsbD 1 := by rw [State.setP_eq]
@[simp] theorem State.setP_fN (s : State) (v : Byte) : (s.setP v).fN = v.getLsbD 7 := by rw [State.setP_eq]
@[simp] theorem State.setP_fV (s : State) (v : Byte) : (s.setP v).fV = v.getLsbD 6 := by rw [State.setP_eq]
@[simp] theorem State.setP_fI (s : State) (v : Byte) : (s.setP v).fI = v.getLsbD 2 := by rw [State.setP_eq]
@[simp] theorem State.setP_fD (s : State) (v : Byte) : (s.setP v).fD = v.getLsbD 3 := by rw [State.setP_eq]
@[simp] theorem State.setP_fB (s : State) (v : Byte) : (s.setP v).fB = (if s.fE then v.getLsbD 4 else s.fB) := by rw [State.setP_eq]
@[simp] theorem State.setP_fE (s : State) (v : Byte) : (s.setP v).fE = s.fE := by rw [State.setP_eq]
@[simp] theorem State.setP_fM (s : State) (v : Byte) : (s.setP v).fM = (if s.fE then s.fM else v.getLsbD 5) := by rw [State.setP_eq]
@[simp] theorem State.setP_fX (s : State) (v : Byte) : (s.setP v).fX = (if s.fE then s.fX else v.getLsbD 4) := by rw [State.setP_eq]
@[simp] theorem State.setP_rbEnabled (s : State) (v : Byte) : (s.setP v).rbEnabled = s.rbEnabled := by rw [State.setP_eq]
@[simp] theorem State.setP_rbSlot (s : State) (v : Byte) : (s.setP v).rbSlot = s.rbSlot := by rw [State.setP_eq]
@[simp] theorem State.setP_rbWindow (s : State) (v : Byte) : (s.setP v).rbWindow = s.rbWindow := by rw [State.setP_eq]
@[simp] theorem State.setP_rbAuxWin (s : State) (v : Byte) : (s.setP v).rbAuxWin = s.rbAuxWin := by rw [State.setP_eq]
@[simp] theorem State.setP_rbAuxEn (s : State) (v : Byte) : (s.setP v).rbAuxEn = s.rbAuxEn := by rw [State.setP_eq]
@[simp] theorem State.setP_rbBind (s : State) (v : Byte) : (s.setP v).rbBind = s.rbBind := by rw [State.setP_eq]
@[simp] theorem State.setP_trap (s : State) (v : Byte) : (s.setP v).trap = s.trap := by rw [State.setP_eq]
@[simp] theorem State.setP_irq (s : State) (v : Byte) : (s.setP v).irq = s.irq := by rw [State.setP_eq]
@[simp] theorem State.setP_nmi (s : State) (v : Byte) : (s.setP v).nmi = s.nmi := by rw [State.setP_eq]
@[simp] theorem State.setP_waiting (s : State) (v : Byte) : (s.setP v).waiting = s.waiting := by rw [State.setP_eq]
@[simp] theorem State.setP_halted (s : State) (v : Byte) : (s.setP v).halted = s.halted := by rw [State.setP_eq]
@[simp] theorem State.setP_steps (s : State) (v : Byte) : (s.setP v).steps = s.steps := by rw [State.setP_eq]
@[simp] theorem State.setP_tokens (s : State) (v : Byte) : (s.setP v).tokens = s.tokens := by rw [State.setP_eq]
@[simp] theorem State.setP_running (s : State) (v : Byte) : (s.setP v).running = s.running := by rw [State.setP_eq]
@[simp] theorem State.setP_logInstalled (s : State) (v : Byte) : (s.setP v).logInstalled = s.logInstalled := by rw [State.setP_eq]
@[simp] theorem State.setP_wasReset (s : State) (v : Byte) : (s.setP v).wasReset = s.wasReset := by rw [State.setP_eq]
@[simp] theorem State.setP_params (s : State) (v : Byte) : (s.setP v).params = s.params := by rw [State.setP_eq]
@[simp] theorem State.setP_devices (s : State) (v : Byte) : (s.setP v).devices = s.devices := by rw [State.setP_eq]
@[simp] theorem State.setP_mem (s : State) (v : Byte) : (s.setP v).mem = s.mem := by rw [State.setP_eq]
@[simp] theorem State.setP_events (s : State) (v : Byte) : (s.setP v).events = s.events := by rw [State.setP_eq]

@[simp] theorem State.putAlu_al (s : State) (w : Width) (q : AluResult) : (s.putAlu w q).al = loByte q.value := by cases w <;> rfl
@[simp] theorem State.putAlu_ah (s : State) (w : Width) (q : AluResult) : (s.putAlu w q).ah = (match w with | .w8 => s.ah | .w16 => hiByte q.value) := by cases w <;> rfl
@[simp] theorem State.putAlu_x (s : State) (w : Width) (q : AluResult) : (s.putAlu w q).x = s.x := by cases w <;> rfl
@[simp] theorem State.putAlu_y (s : State) (w : Width) (q : AluResult) : (s.putAlu w q).y = s.y := by cases w <;> rfl
@[simp] theorem State.putAlu_sp (s : State) (w : Width) (q : AluResult) : (s.putAlu w q).sp = s.sp := by cases w <;> rfl
@[simp] theorem State.putAlu_r (s : State) (w : Width) (q : AluResult) : (s.putAlu w q).r = s.r := by cases w <;> rfl
@[simp] theorem State.putAlu_pc (s : State) (w : Width) (q : AluResult) : (s.putAlu w q).pc = s.pc := by cases w <;> rfl
@[simp] theorem State.putAlu_i (s : State) (w : Width) (q : AluResult) : (s.putAlu w q).i = s.i := by cases w <;> rfl
@[simp] theorem State.putAlu_d (s : State) (w : Width) (q : AluResult) : (s.putAlu w q).d = s.d := by cases w <;> rfl
@[simp] theorem State.putAlu_por (s : State) (w : Width) (q : AluResult) : (s.putAlu w q).por = s.por := by cases w <;> rfl
@[simp] theorem State.putAlu_brkv (s : State) (w : Width) (q : AluResult) : (s.putAlu w q).brkv = s.brkv := by cases w <;> rfl
@[simp] theorem State.putAlu_fC (s : State) (w : Width) (q : AluResult) : (s.putAlu w q).fC = q.carry := by cases w <;> rfl
@[simp] theorem State.putAlu_fZ (s : State) (w : Width) (q : AluResult) : (s.putAlu w q).fZ = (cut w q.value == 0) := by cases w <;> rfl
@[simp] theorem State.putAlu_fN (s : State) (w : Width) (q : AluResult) : (s.putAlu w q).fN = topBit w q.value := by cases w <;> rfl
@[simp] theorem State.putAlu_fV (s : State) (w : Width) (q : AluResult) : (s.putAlu w q).fV = q.overflow := by cases w <;> rfl
@[simp] theorem State.putAlu_fI (s : State) (w : Width) (q : AluResult) : (s.putAlu w q).fI = s.fI := by cases w <;> rfl
@[simp] theorem State.putAlu_fD (s : State) (w : Width) (q : AluResult) : (s.putAlu w q).fD = s.fD := by cases w <;> rfl
@[simp] theorem State.putAlu_fB (s : State) (w : Width) (q : AluResult) : (s.putAlu w q).fB = s.fB := by cases w <;> rfl
@[simp] theorem State.putAlu_fE (s : State) (w : Width) (q : AluResult) : (s.putAlu w q).fE = s.fE := by cases w <;> rfl
@[simp] theorem State.putAlu_fM (s : State) (w : Width) (q : AluResult) : (s.putAlu w q).fM = s.fM := by cases w <;> rfl
@[simp] theorem State.putAlu_fX (s : State) (w : Width) (q : AluResult) : (s.putAlu w q).fX = s.fX := by cases w <;> rfl
@[simp] theorem State.putAlu_rbEnabled (s : State) (w : Width) (q : AluResult) : (s.putAlu w q).rbEnabled = s.rbEnabled := by cases w <;> rfl
@[simp] theorem State.putAlu_rbSlot (s : State) (w : Width) (q : AluResult) : (s.putAlu w q).rbSlot = s.rbSlot := by cases w <;> rfl
@[simp] theorem State.putAlu_rbWindow (s : State) (w : Width) (q : AluResult) : (s.putAlu w q).rbWindow = s.rbWindow := by cases w <;> rfl
@[simp] theorem State.putAlu_rbAuxWin (s : State) (w : Width) (q : AluResult) : (s.putAlu w q).rbAuxWin = s.rbAuxWin := by cases w <;> rfl
@[simp] theorem State.putAlu_rbAuxEn (s : State) (w : Width) (q : AluResult) : (s.putAlu w q).rbAuxEn = s.rbAuxEn := by cases w <;> rfl
@[simp] theorem State.putAlu_rbBind (s : State) (w : Width) (q : AluResult) : (s.putAlu w q).rbBind = s.rbBind := by cases w <;> rfl
@[simp] theorem State.putAlu_trap (s : State) (w : Width) (q : AluResult) : (s.putAlu w q).trap = s.trap := by cases w <;> rfl
@[simp] theorem State.putAlu_irq (s : State) (w : Width) (q : AluResult) : (s.putAlu w q).irq = s.irq := by cases w <;> rfl
@[simp] theorem State.putAlu_nmi (s : State) (w : Width) (q : AluResult) : (s.putAlu w q).nmi = s.nmi := by cases w <;> rfl
@[simp] theorem State.putAlu_waiting (s : State) (w : Width) (q : AluResult) : (s.putAlu w q).waiting = s.waiting := by cases w <;> rfl
@[simp] theorem State.putAlu_halted (s : State) (w : Width) (q : AluResult) : (s.putAlu w q).halted = s.halted := by cases w <;> rfl
@[simp] theorem State.putAlu_steps (s : State) (w : Width) (q : AluResult) : (s.putAlu w q).steps = s.steps := by cases w <;> rfl
@[simp] theorem State.putAlu_tokens (s : State) (w : Width) (q : AluResult) : (s.putAlu w q).tokens = s.tokens := by cases w <;> rfl
@[simp] theorem State.putAlu_running (s : State) (w : Width) (q : AluResult) : (s.putAlu w q).running = s.running := by cases w <;> rfl
@[simp] theorem State.putAlu_logInstalled (s : State) (w : Width) (q : AluResult) : (s.putAlu w q).logInstalled = s.logInstalled := by cases w <;> rfl
@[simp] theorem State.putAlu_wasReset (s : State) (w : Width) (q : AluResult) : (s.putAlu w q).wasReset = s.wasReset := by cases w <;> rfl
@[simp] theorem State.putAlu_params (s : State) (w : Width) (q : AluResult) : (s.putAlu w q).params = s.params := by cases w <;> rfl
@[simp] theorem State.putAlu_devices (s : State) (w : Width) (q : AluResult) : (s.putAlu w q).devices = s.devices := by cases w <;> rfl
@[simp] theorem State.putAlu_mem (s : State) (w : Width) (q : AluResult) : (s.putAlu w q).mem = s.mem := by cases w <;> rfl
@[simp] theorem State.putAlu_events (s : State) (w : Width) (q : AluResult) : (s.putAlu w q).events = s.events := by cases w <;> rfl

@[simp] theorem State.compare_al (s : State) (w : Width) (reg m : Word) : (s.compare w reg m).al = s.al := rfl
@[simp] theorem State.compare_ah (s : State) (w : Width) (reg m : Word) : (s.compare w reg m).ah = s.ah := rfl
@[simp] theorem State.compare_x (s : State) (w : Width) (reg m : Word) : (s.compare w reg m).x = s.x := rfl
@[simp] theorem State.compare_y (s : State) (w : Width) (reg m : Word) : (s.compare w reg m).y = s.y := rfl
@[simp] theorem State.compare_sp (s : State) (w : Width) (reg m : Word) : (s.compare w reg m).sp = s.sp := rfl
@[simp] theorem State.compare_r (s : State) (w : Width) (reg m : Word) : (s.compare w reg m).r = s.r := rfl
@[simp] theorem State.compare_pc (s : State) (w : Width) (reg m : Word) : (s.compare w reg m).pc = s.pc := rfl
@[simp] theorem State.compare_i (s : State) (w : Width) (reg m : Word) : (s.compare w reg m).i = s.i := rfl
@[simp] theorem State.compare_d (s : State) (w : Width) (reg m : Word) : (s.compare w reg m).d = s.d := rfl
@[simp] theorem State.compare_por (s : State) (w : Width) (reg m : Word) : (s.compare w reg m).por = s.por := rfl
@[simp] theorem State.compare_brkv (s : State) (w : Width) (reg m : Word) : (s.compare w reg m).brkv = s.brkv := rfl
@[simp] theorem State.compare_fC (s : State) (w : Width) (reg m : Word) : (s.compare w reg m).fC = decide (reg.toNat ≥ m.toNat) := rfl
@[simp] theorem State.compare_fZ (s : State) (w : Width) (reg m : Word) : (s.compare w reg m).fZ = (cut w (reg - m) == 0) := rfl
@[simp] theorem State.compare_fN (s : State) (w : Width) (reg m : Word) : (s.compare w reg m).fN = topBit w (reg - m) := rfl
@[simp] theorem State.compare_fV (s : State) (w : Width) (reg m : Word) : (s.compare w reg m).fV = s.fV := rfl
@[simp] theorem State.compare_fI (s : State) (w : Width) (reg m : Word) : (s.compare w reg m).fI = s.fI := rfl
@[simp] theorem State.compare_fD (s : State) (w : Width) (reg m : Word) : (s.compare w reg m).fD = s.fD := rfl
@[simp] theorem State.compare_fB (s : State) (w : Width) (reg m : Word) : (s.compare w reg m).fB = s.fB := rfl
@[simp] theorem State.compare_fE (s : State) (w : Width) (reg m : Word) : (s.compare w reg m).fE = s.fE := rfl
@[simp] theorem State.compare_fM (s : State) (w : Width) (reg m : Word) : (s.compare w reg m).fM = s.fM := rfl
@[simp] theorem State.compare_fX (s : State) (w : Width) (reg m : Word) : (s.compare w reg m).fX = s.fX := rfl
@[simp] theorem State.compare_rbEnabled (s : State) (w : Width) (reg m : Word) : (s.compare w reg m).rbEnabled = s.rbEnabled := rfl
@[simp] theorem State.compare_rbSlot (s : State) (w : Width) (reg m : Word) : (s.compare w reg m).rbSlot = s.rbSlot := rfl
@[simp] theorem State.compare_rbWindow (s : State) (w : Width) (reg m : Word) : (s.compare w reg m).rbWindow = s.rbWindow := rfl
@[simp] theorem State.compare_rbAuxWin (s : State) (w : Width) (reg m : Word) : (s.compare w reg m).rbAuxWin = s.rbAuxWin := rfl
@[simp] theorem State.compare_rbAuxEn (s : State) (w : Width) (reg m : Word) : (s.compare w reg m).rbAuxEn = s.rbAuxEn := rfl
@[simp] theorem State.compare_rbBind (s : State) (w : Width) (reg m : Word) : (s.compare w reg m).rbBind = s.rbBind := rfl
@[simp] theorem State.compare_trap (s : State) (w : Width) (reg m : Word) : (s.compare w reg m).trap = s.trap := rfl
@[simp] theorem State.compare_irq (s : State) (w : Width) (reg m : Word) : (s.compare w reg m).irq = s.irq := rfl
@[simp] theorem State.compare_nmi (s : State) (w : Width) (reg m : Word) : (s.compare w reg m).nmi = s.nmi := rfl
@[simp] theorem State.compare_waiting (s : State) (w : Width) (reg m : Word) : (s.compare w reg m).waiting = s.waiting := rfl
@[simp] theorem State.compare_halted (s : State) (w : Width) (reg m : Word) : (s.compare w reg m).halted = s.halted := rfl
@[simp] theorem State.compare_steps (s : State) (w : Width) (reg m : Word) : (s.compare w reg m).steps = s.steps := rfl
@[simp] theorem State.compare_tokens (s : State) (w : Width) (reg m : Word) : (s.compare w reg m).tokens = s.tokens := rfl
@[simp] theorem State.compare_running (s : State) (w : Width) (reg m : Word) : (s.compare w reg m).running = s.running := rfl
@[simp] theorem State.compare_logInstalled (s : State) (w : Width) (reg m : Word) : (s.compare w reg m).logInstalled = s.logInstalled := rfl
@[simp] theorem State.compare_wasReset (s : State) (w : Width) (reg m : Word) : (s.compare w reg m).wasReset = s.wasReset := rfl
@[simp] theorem State.compare_params (s : State) (w : Width) (reg m : Word) : (s.compare w reg m).params = s.params := rfl
@[simp] theorem State.compare_devices (s : State) (w : Width) (reg m : Word) : (s.compare w reg m).devices = s.devices := rfl
@[simp] theorem State.compare_mem (s : State) (w : Width) (reg m : Word) : (s.compare w reg m).mem = s.mem := rfl
@[simp] theorem State.compare_events (s : State) (w : Width) (reg m : Word) : (s.compare w reg m).events = s.events := rfl

@[simp] theorem State.tell_al (s : State) (e : HostEvent) : (s.tell e).al = s.al := rfl
@[simp] theorem State.tell_ah (s : State) (e : HostEvent) : (s.tell e).ah = s.ah := rfl
@[simp] theorem State.tell_x (s : State) (e : HostEvent) : (s.tell e).x = s.x := rfl
@[simp] theorem State.tell_y (s : State) (e : HostEvent) : (s.tell e).y = s.y := rfl
@[simp] theorem State.tell_sp (s : State) (e : HostEvent) : (s.tell e).sp = s.sp := rfl
@[simp] theorem State.tell_r (s : State) (e : HostEvent) : (s.tell e).r = s.r := rfl
@[simp] theorem State.tell_pc (s : State) (e : HostEvent) : (s.tell e).pc = s.pc := rfl
@[simp] theorem State.tell_i (s : State) (e : HostEvent) : (s.tell e).i = s.i := rfl
@[simp] theorem State.tell_d (s : State) (e : HostEvent) : (s.tell e).d = s.d := rfl
@[simp] theorem State.tell_por (s : State) (e : HostEvent) : (s.tell e).por = s.por := rfl
@[simp] theorem State.tell_brkv (s : State) (e : HostEvent) : (s.tell e).brkv = s.brkv := rfl
@[simp] theorem State.tell_fC (s : State) (e : HostEvent) : (s.tell e).fC = s.fC := rfl
@[simp] theorem State.tell_fZ (s : State) (e : HostEvent) : (s.tell e).fZ = s.fZ := rfl
@[simp] theorem State.tell_fN (s : State) (e : HostEvent) : (s.tell e).fN = s.fN := rfl
@[simp] theorem State.tell_fV (s : State) (e : HostEvent) : (s.tell e).fV = s.fV := rfl
@[simp] theorem State.tell_fI (s : State) (e : HostEvent) : (s.tell e).fI = s.fI := rfl
@[simp] theorem State.tell_fD (s : State) (e : HostEvent) : (s.tell e).fD = s.fD := rfl
@[simp] theorem State.tell_fB (s : State) (e : HostEvent) : (s.tell e).fB = s.fB := rfl
@[simp] theorem State.tell_fE (s : State) (e : HostEvent) : (s.tell e).fE = s.fE := rfl
@[simp] theorem State.tell_fM (s : State) (e : HostEvent) : (s.tell e).fM = s.fM := rfl
@[simp] theorem State.tell_fX (s : State) (e : HostEvent) : (s.tell e).fX = s.fX := rfl
@[simp] theorem State.tell_rbEnabled (s : State) (e : HostEvent) : (s.tell e).rbEnabled = s.rbEnabled := rfl
@[simp] theorem State.tell_rbSlot (s : State) (e : HostEvent) : (s.tell e).rbSlot = s.rbSlot := rfl
@[simp] theorem State.tell_rbWindow (s : State) (e : HostEvent) : (s.tell e).rbWindow = s.rbWindow := rfl
@[simp] theorem State.tell_rbAuxWin (s : State) (e : HostEvent) : (s.tell e).rbAuxWin = s.rbAuxWin := rfl
@[simp] theorem State.tell_rbAuxEn (s : State) (e : HostEvent) : (s.tell e).rbAuxEn = s.rbAuxEn := rfl
@[simp] theorem State.tell_rbBind (s : State) (e : HostEvent) : (s.tell e).rbBind = s.rbBind := rfl
@[simp] theorem State.tell_trap (s : State) (e : HostEvent) : (s.tell e).trap = s.trap := rfl
@[simp] theorem State.tell_irq (s : State) (e : HostEvent) : (s.tell e).irq = s.irq := rfl
@[simp] theorem State.tell_nmi (s : State) (e : HostEvent) : (s.tell e).nmi = s.nmi := rfl
@[simp] theorem State.tell_waiting (s : State) (e : HostEvent) : (s.tell e).waiting = s.waiting := rfl
@[simp] theorem State.tell_halted (s : State) (e : HostEvent) : (s.tell e).halted = s.halted := rfl
@[simp] theorem State.tell_steps (s : State) (e : HostEvent) : (s.tell e).steps = s.steps := rfl
@[simp] theorem State.tell_tokens (s : State) (e : HostEvent) : (s.tell e).tokens = s.tokens := rfl
@[simp] theorem State.tell_running (s : State) (e : HostEvent) : (s.tell e).running = s.running := rfl
@[simp] theorem State.tell_logInstalled (s : State) (e : HostEvent) : (s.tell e).logInstalled = s.logInstalled := rfl
@[simp] theorem State.tell_wasReset (s : State) (e : HostEvent) : (s.tell e).wasReset = s.wasReset := rfl
@[simp] theorem State.tell_params (s : State) (e : HostEvent) : (s.tell e).params = s.params := rfl
@[simp] theorem State.tell_devices (s : State) (e : HostEvent) : (s.tell e).devices = s.devices := rfl
@[simp] theorem State.tell_mem (s : State) (e : HostEvent) : (s.tell e).mem = s.mem := rfl
@[simp] theorem State.tell_events (s : State) (e : HostEvent) : (s.tell e).events = e :: s.events := rfl

@[simp] theorem State.countStep_al (s : State) : (s.countStep).al = s.al := rfl
@[simp] theorem State.countStep_ah (s : State) : (s.countStep).ah = s.ah := rfl
@[simp] theorem State.countStep_x (s : State) : (s.countStep).x = s.x := rfl
@[simp] theorem State.countStep_y (s : State) : (s.countStep).y = s.y := rfl
@[simp] theorem State.countStep_sp (s : State) : (s.countStep).sp = s.sp := rfl
@[simp] theorem State.countStep_r (s : State) : (s.countStep).r = s.r := rfl
@[simp] theorem State.countStep_pc (s : State) : (s.countStep).pc = s.pc := rfl
@[simp] theorem State.countStep_i (s : State) : (s.countStep).i = s.i := rfl
@[simp] theorem State.countStep_d (s : State) : (s.countStep).d = s.d := rfl
@[simp] theorem State.countStep_por (s : State) : (s.countStep).por = s.por := rfl
@[simp] theorem State.countStep_brkv (s : State) : (s.countStep).brkv = s.brkv := rfl
@[simp] theorem State.countStep_fC (s : State) : (s.countStep).fC = s.fC := rfl
@[simp] theorem State.countStep_fZ (s : State) : (s.countStep).fZ = s.fZ := rfl
@[simp] theorem State.countStep_fN (s : State) : (s.countStep).fN = s.fN := rfl
@[simp] theorem State.countStep_fV (s : State) : (s.countStep).fV = s.fV := rfl
@[simp] theorem State.countStep_fI (s : State) : (s.countStep).fI = s.fI := rfl
@[simp] theorem State.countStep_fD (s : State) : (s.countStep).fD = s.fD := rfl
@[simp] theorem State.countStep_fB (s : State) : (s.countStep).fB = s.fB := rfl
@[simp] theorem State.countStep_fE (s : State) : (s.countStep).fE = s.fE := rfl
@[simp] theorem State.countStep_fM (s : State) : (s.countStep).fM = s.fM := rfl
@[simp] theorem State.countStep_fX (s : State) : (s.countStep).fX = s.fX := rfl
@[simp] theorem State.countStep_rbEnabled (s : State) : (s.countStep).rbEnabled = s.rbEnabled := rfl
@[simp] theorem State.countStep_rbSlot (s : State) : (s.countStep).rbSlot = s.rbSlot := rfl
@[simp] theorem State.countStep_rbWindow (s : State) : (s.countStep).rbWindow = s.rbWindow := rfl
@[simp] theorem State.countStep_rbAuxWin (s : State) : (s.countStep).rbAuxWin = s.rbAuxWin := rfl
@[simp] theorem State.countStep_rbAuxEn (s : State) : (s.countStep).rbAuxEn = s.rbAuxEn := rfl
@[simp] theorem State.countStep_rbBind (s : State) : (s.countStep).rbBind = s.rbBind := rfl
@[simp] theorem State.countStep_trap (s : State) : (s.countStep).trap = s.trap := rfl
@[simp] theorem State.countStep_irq (s : State) : (s.countStep).irq = s.irq := rfl
@[simp] theorem State.countStep_nmi (s : State) : (s.countStep).nmi = s.nmi := rfl
@[simp] theorem State.countStep_waiting (s : State) : (s.countStep).waiting = s.waiting := rfl
@[simp] theorem State.countStep_halted (s : State) : (s.countStep).halted = s.halted := rfl
@[simp] theorem State.countStep_steps (s : State) : (s.countStep).steps = s.steps + 1 := rfl
@[simp] theorem State.countStep_tokens (s : State) : (s.countStep).tokens = s.tokens := rfl
@[simp] theorem State.countStep_running (s : State) : (s.countStep).running = s.running := rfl
@[simp] theorem State.countStep_logInstalled (s : State) : (s.countStep).logInstalled = s.logInstalled := rfl
@[simp] theorem State.countStep_wasReset (s : State) : (s.countStep).wasReset = s.wasReset := rfl
@[simp] theorem State.countStep_params (s : State) : (s.countStep).params = s.params := rfl
@[simp] theorem State.countStep_devices (s : State) : (s.countStep).devices = s.devices := rfl
@[simp] theorem State.countStep_mem (s : State) : (s.countStep).mem = s.mem := rfl
@[simp] theorem State.countStep_events (s : State) : (s.countStep).events = s.events := rfl

end Sys2Proof.Machine
end

