-- ==== Sys2Proof/Laws/Bus.lean ====
section
/-! SUPPORT. What a bus transaction, a memory access, an addressing mode and a stack operation can do. -/

namespace Sys2Proof.Machine

/-! ## Two ways a state can come out of an access -/

/-- Nothing but the record of interactions differs. -/
def ReadOnly (s t : State) : Prop := t = { s with events := t.events }

/-- Nothing but memory and the record of interactions differs, and memory in canonical form stays so. -/
def BusOnly (s t : State) : Prop :=
  t = { s with mem := t.mem, events := t.events } ∧ (Memory.wf s.mem = true → Memory.wf t.mem = true)

theorem ReadOnly.refl (s : State) : ReadOnly s s := by rw [ReadOnly]

theorem ReadOnly.trans {s t u : State} (h : ReadOnly s t) (h' : ReadOnly t u) : ReadOnly s u := by
  rw [ReadOnly] at *; rw [h', h]

theorem ReadOnly.busOnly {s t : State} (h : ReadOnly s t) : BusOnly s t := by
  rw [ReadOnly] at h
  refine ⟨by rw [h], fun hw => ?_⟩
  rw [h]; exact hw

theorem BusOnly.refl (s : State) : BusOnly s s := (ReadOnly.refl s).busOnly

theorem BusOnly.trans {s t u : State} (h : BusOnly s t) (h' : BusOnly t u) : BusOnly s u :=
  ⟨by rw [h'.1, h.1], fun hw => h'.2 (h.2 hw)⟩

theorem bind_eq_ok {ε α β : Type} {x : Except ε α} {f : α → Except ε β} {r : β} :
    (x >>= f) = .ok r ↔ ∃ a, x = .ok a ∧ f a = .ok r := by
  cases x with
  | error e => exact ⟨fun h => (by cases h), fun ⟨_, h, _⟩ => (by cases h)⟩
  | ok a => exact ⟨fun h => ⟨a, rfl, h⟩, fun ⟨_, h, h2⟩ => (by cases h; exact h2)⟩

@[simp] theorem ok_bind {ε α β : Type} (a : α) (f : α → Except ε β) : (Except.ok a >>= f) = f a := rfl

@[simp] theorem finish_ok (s : State) : finish (.ok s) = .next s := rfl

@[simp] theorem finish_error (f : Fault) : finish (.error f) = .fault f := rfl

theorem finish_eq_next {r : Except Fault State} {t : State} : finish r = .next t ↔ r = .ok t := by
  cases r <;> simp [finish]

theorem finish_ne_refused {r : Except Fault State} {q : Refusal} : finish r ≠ .refused q := by
  cases r <;> simp [finish]

/-! ## The device that owns an address -/

theorem nearestDevice_eq_none {l : List Device} {a : Word} : nearestDevice l a = none ↔ ∀ dv ∈ l, ¬ dv.start ≤ a := by
  induction l with
  | nil => simp [nearestDevice]
  | cons d t ih =>
    rw [nearestDevice, List.forall_mem_cons, ← ih]
    cases nearestDevice t a with
    | none => by_cases h : d.start ≤ a <;> simp [h]
    | some e => by_cases h : d.start ≤ a ∧ e.start < d.start <;> simp [h]

/-- What is found is a listed device at or below the address, and none such starts higher. -/
theorem nearestDevice_eq_some {l : List Device} {a : Word} {dv : Device} (h : nearestDevice l a = some dv) :
    dv ∈ l ∧ dv.start ≤ a ∧ ∀ e ∈ l, e.start ≤ a → e.start ≤ dv.start := by
  induction l generalizing dv with
  | nil => cases h
  | cons d t ih =>
    rw [nearestDevice] at h
    cases ht : nearestDevice t a with
    | none =>
      rw [ht] at h
      by_cases hd : d.start ≤ a
      · simp only [if_pos hd] at h
        cases h
        refine ⟨List.mem_cons_self, hd, fun e he hea => ?_⟩
        rcases List.mem_cons.1 he with rfl | he
        · exact BitVec.le_refl _
        · exact absurd hea (nearestDevice_eq_none.1 ht e he)
      · simp [if_neg hd] at h
    | some f =>
      rw [ht] at h
      obtain ⟨h1, h2, h3⟩ := ih ht
      by_cases hd : d.start ≤ a ∧ f.start < d.start
      · simp only [if_pos hd] at h
        cases h
        refine ⟨List.mem_cons_self, hd.1, fun e he hea => ?_⟩
        rcases List.mem_cons.1 he with rfl | he
        · exact BitVec.le_refl _
        · exact BitVec.le_of_lt (by have := h3 e he hea; have := hd.2; bv_omega)
      · simp only [if_neg hd] at h
        cases h
        refine ⟨List.mem_cons_of_mem _ h1, h2, fun e he hea => ?_⟩
        rcases List.mem_cons.1 he with rfl | he
        · exact BitVec.not_lt.1 fun hlt => hd ⟨hea, hlt⟩
        · exact h3 e he hea

/-- Of devices with distinct starts, the one at or below the address that starts highest is found. -/
theorem nearestDevice_of_greatest {l : List Device} {a : Word} {dv : Device} (hd : distinctStarts l = true) (hm : dv ∈ l)
    (ha : dv.start ≤ a) (hg : ∀ e ∈ l, e.start ≤ a → e.start ≤ dv.start) : nearestDevice l a = some dv := by
  cases h : nearestDevice l a with
  | none => exact absurd ha (nearestDevice_eq_none.1 h dv hm)
  | some f =>
    obtain ⟨h1, h2, h3⟩ := nearestDevice_eq_some h
    have hs : f.start = dv.start := BitVec.le_antisymm (hg f h1 h2) (h3 dv hm ha)
    have : ∀ {l : List Device}, distinctStarts l = true → f ∈ l → dv ∈ l → f = dv := by
      intro l
      induction l with
      | nil => intro _ h; cases h
      | cons d t ih =>
        intro hd hf hv
        simp only [distinctStarts, Bool.and_eq_true, List.all_eq_true, bne_iff_ne] at hd
        rcases List.mem_cons.1 hf with hf' | hf' <;> rcases List.mem_cons.1 hv with hv' | hv'
        · rw [hf', hv']
        · exact absurd (hf' ▸ hs.symm) (hd.1 dv hv')
        · exact absurd (hv' ▸ hs) (hd.1 f hf')
        · exact ih hd.2 hf' hv'
    rw [this hd h1 hm]

/-! ## One byte -/

theorem ask_readOnly (s : State) (e : HostEvent) : ReadOnly s (s.ask e).2 := rfl

theorem tell_busOnly (s : State) (e : HostEvent) : BusOnly s (s.tell e) := ⟨rfl, fun h => h⟩

theorem redBusRead_readOnly (a : Word) (s : State) : ReadOnly s (redBusRead a s).2 := by
  unfold redBusRead
  split
  · split
    · exact ReadOnly.refl s
    · exact ask_readOnly s _
  · exact ReadOnly.refl s

theorem redBusWrite_busOnly (a : Word) (v : Byte) (s : State) : BusOnly s (redBusWrite a v s) := by
  unfold redBusWrite
  split
  · split
    · exact BusOnly.refl s
    · exact tell_busOnly s _
  · exact BusOnly.refl s

/-- A bus read changes at most the record of interactions. -/
theorem busRead_readOnly {a : Word} {s t : State} {v : Byte} (h : busRead a s = .ok (v, t)) : ReadOnly s t := by
  unfold busRead at h
  split at h
  · have := redBusRead_readOnly a s
    rw [Except.ok.inj h] at this; exact this
  · cases h; exact ReadOnly.refl s
  · cases h; exact ask_readOnly s _
  · cases h

/-- A bus write changes at most memory and the record of interactions. -/
theorem busWrite_busOnly {a : Word} {s t : State} {v : Byte} (h : busWrite a v s = .ok t) : BusOnly s t := by
  unfold busWrite at h
  split at h
  · cases h; exact redBusWrite_busOnly a v s
  · cases h; exact ⟨rfl, Memory.wf_write a v⟩
  · cases h; exact tell_busOnly s _
  · cases h

theorem redBusWrite_mem (a : Word) (v : Byte) (s : State) : (redBusWrite a v s).mem = s.mem := by
  unfold redBusWrite
  split
  · split <;> rfl
  · rfl

/-- A bus write to RAM writes the byte; to anything else, memory stays. -/
theorem busWrite_mem {a : Word} {s t : State} {v : Byte} (h : busWrite a v s = .ok t) :
    t.mem = if s.busTarget a = .ram then Memory.write s.mem a.toNat v else s.mem := by
  unfold busWrite at h
  split at h <;> rename_i hb <;> rw [hb]
  · cases h; simpa using redBusWrite_mem a v s
  · cases h; rfl
  · cases h; rfl
  · cases h

/-- A bus write leaves every byte of memory but its own. -/
theorem busWrite_other {a : Word} {s t : State} {v : Byte} (h : busWrite a v s = .ok t) (hw : Memory.wf s.mem = true)
    (b : Word) (hb : b ≠ a) : Memory.read t.mem b.toNat = Memory.read s.mem b.toNat := by
  rw [busWrite_mem h]
  split
  · rw [Memory.read_write hw, if_neg hb]
  · rfl

/-- A bus write to RAM leaves its byte there. -/
theorem busWrite_self {a : Word} {s t : State} {v : Byte} (h : busWrite a v s = .ok t) (hw : Memory.wf s.mem = true)
    (hr : s.busTarget a = .ram) : Memory.read t.mem a.toNat = v := by
  rw [busWrite_mem h, if_pos hr, Memory.read_write hw, if_pos rfl]

/-- Where a transaction goes does not depend on memory or the record. -/
theorem busTarget_of_busOnly {s t : State} (h : BusOnly s t) (a : Word) : t.busTarget a = s.busTarget a := by
  rw [h.1]; rfl

theorem busRead_ram {a : Word} {s : State} (h : s.busTarget a = .ram) :
    busRead a s = .ok (Memory.read s.mem a.toNat, s) := by
  unfold busRead; rw [h]

theorem busWrite_ram {a : Word} {s : State} (v : Byte) (h : s.busTarget a = .ram) :
    busWrite a v s = .ok { s with mem := Memory.write s.mem a.toNat v } := by
  unfold busWrite; rw [h]

theorem busTarget_of_cover {s : State} (h : s.DevicesCover) (a : Word) : s.busTarget a ≠ .unmapped := by
  obtain ⟨dv, h1, h2⟩ := h a
  unfold State.busTarget
  split
  · simp
  · rw [h1]
    simp only
    rw [if_neg (by simpa using h2)]
    split <;> simp

/-- Where devices cover the address space, every read answers. -/
theorem busRead_of_cover {s : State} (h : s.DevicesCover) (a : Word) : ∃ v t, busRead a s = .ok (v, t) := by
  have := busTarget_of_cover h a
  unfold busRead
  split
  · exact ⟨_, _, rfl⟩
  · exact ⟨_, _, rfl⟩
  · exact ⟨_, _, rfl⟩
  · contradiction

/-- Where devices cover the address space, every write answers. -/
theorem busWrite_of_cover {s : State} (h : s.DevicesCover) (a : Word) (v : Byte) : ∃ t, busWrite a v s = .ok t := by
  have := busTarget_of_cover h a
  unfold busWrite
  split
  · exact ⟨_, rfl⟩
  · exact ⟨_, rfl⟩
  · exact ⟨_, rfl⟩
  · contradiction

theorem cover_of_busOnly {s t : State} (h : BusOnly s t) (hc : s.DevicesCover) : t.DevicesCover := by
  unfold State.DevicesCover at *; rw [h.1]; exact hc

/-- The only fault of a read is that its own address is unmapped. -/
theorem busRead_error {a : Word} {s : State} {f : Fault} (h : busRead a s = .error f) :
    f = .busUnmapped a ∧ s.busTarget a = .unmapped := by
  unfold busRead at h
  split at h <;> cases h
  rename_i hb
  exact ⟨rfl, hb⟩

/-- The only fault of a write is that its own address is unmapped. -/
theorem busWrite_error {a : Word} {s : State} {v : Byte} {f : Fault} (h : busWrite a v s = .error f) :
    f = .busUnmapped a ∧ s.busTarget a = .unmapped := by
  unfold busWrite at h
  split at h <;> cases h
  rename_i hb
  exact ⟨rfl, hb⟩

/-! ## Words, pointers and operands -/

theorem memRead16_readOnly {a : Word} {s t : State} {v : Word} (h : memRead16 a s = .ok (v, t)) : ReadOnly s t := by
  unfold memRead16 at h
  obtain ⟨⟨lo, s1⟩, h1, h⟩ := bind_eq_ok.1 h
  obtain ⟨⟨hi, s2⟩, h2, h⟩ := bind_eq_ok.1 h
  cases h
  exact (busRead_readOnly h1).trans (busRead_readOnly h2)

theorem memReadW_readOnly {w : Width} {a : Word} {s t : State} {v : Word} (h : memReadW w a s = .ok (v, t)) :
    ReadOnly s t := by
  cases w with
  | w8 =>
    obtain ⟨⟨b, s1⟩, h1, h⟩ := bind_eq_ok.1 h
    cases h
    exact busRead_readOnly h1
  | w16 => exact memRead16_readOnly h

theorem zpPtr_readOnly {z : Byte} {s t : State} {v : Word} (h : zpPtr z s = .ok (v, t)) : ReadOnly s t := by
  unfold zpPtr at h
  obtain ⟨⟨lo, s1⟩, h1, h⟩ := bind_eq_ok.1 h
  obtain ⟨⟨hi, s2⟩, h2, h⟩ := bind_eq_ok.1 h
  cases h
  exact (busRead_readOnly h1).trans (busRead_readOnly h2)

theorem windowPtr_readOnly {addr : Byte → Word} {o : Byte} {s t : State} {v : Word}
    (h : windowPtr addr o s = .ok (v, t)) : ReadOnly s t := by
  unfold windowPtr at h
  obtain ⟨⟨lo, s1⟩, h1, h⟩ := bind_eq_ok.1 h
  obtain ⟨⟨hi, s2⟩, h2, h⟩ := bind_eq_ok.1 h
  cases h
  exact (busRead_readOnly h1).trans (busRead_readOnly h2)

/-- An addressing mode changes at most the record of interactions. -/
theorem effAddr_readOnly {m : MemMode} {s t : State} {ea : Word} (h : effAddr m s = .ok (ea, t)) : ReadOnly s t := by
  cases m with
  | izpX z => exact zpPtr_readOnly h
  | izp z => exact zpPtr_readOnly h
  | izpY z => obtain ⟨⟨p, s1⟩, h1, h⟩ := bind_eq_ok.1 h; cases h; exact zpPtr_readOnly h1
  | isrY o => obtain ⟨⟨p, s1⟩, h1, h⟩ := bind_eq_ok.1 h; cases h; exact windowPtr_readOnly h1
  | irrY o => obtain ⟨⟨p, s1⟩, h1, h⟩ := bind_eq_ok.1 h; cases h; exact windowPtr_readOnly h1
  | _ => cases h; exact ReadOnly.refl s

/-- A source operand's read changes at most the record of interactions. -/
theorem readSrc_readOnly {w : Width} {o : Src} {s t : State} {v : Word} (h : readSrc w o s = .ok (v, t)) :
    ReadOnly s t := by
  cases o with
  | imm u => cases h; exact ReadOnly.refl s
  | mem m =>
    obtain ⟨⟨ea, s1⟩, h1, h⟩ := bind_eq_ok.1 h
    exact (effAddr_readOnly h1).trans (memReadW_readOnly h)

/-- A store changes at most memory and the record of interactions. -/
theorem memWriteW_busOnly {w : Width} {a v : Word} {s t : State} (h : memWriteW w a v s = .ok t) : BusOnly s t := by
  cases w with
  | w8 => exact busWrite_busOnly h
  | w16 =>
    obtain ⟨s1, h1, h⟩ := bind_eq_ok.1 h
    exact (busWrite_busOnly h1).trans (busWrite_busOnly h)

/-- A store leaves every byte of memory but those of its width from its address on. -/
theorem memWriteW_other {w : Width} {a v : Word} {s t : State} (h : memWriteW w a v s = .ok t)
    (hw : Memory.wf s.mem = true) (b : Word) (hb : b ≠ a) (hb' : w = .w16 → b ≠ a + 1) :
    Memory.read t.mem b.toNat = Memory.read s.mem b.toNat := by
  cases w with
  | w8 => exact busWrite_other h hw b hb
  | w16 =>
    obtain ⟨s1, h1, h⟩ := bind_eq_ok.1 h
    rw [busWrite_other h ((busWrite_busOnly h1).2 hw) b (hb' rfl), busWrite_other h1 hw b hb]

/-- A store to RAM leaves the low byte at its address. -/
theorem memWriteW_low {w : Width} {a v : Word} {s t : State} (h : memWriteW w a v s = .ok t)
    (hw : Memory.wf s.mem = true) (hr : s.busTarget a = .ram) : Memory.read t.mem a.toNat = loByte v := by
  cases w with
  | w8 => exact busWrite_self h hw hr
  | w16 =>
    obtain ⟨s1, h1, h⟩ := bind_eq_ok.1 h
    rw [busWrite_other h ((busWrite_busOnly h1).2 hw) a (by bv_omega), busWrite_self h1 hw hr]

/-- A 16-bit store to RAM leaves the high byte at the next address. -/
theorem memWriteW_high {a v : Word} {s t : State} (h : memWriteW .w16 a v s = .ok t) (hw : Memory.wf s.mem = true)
    (hr : s.busTarget (a + 1) = .ram) : Memory.read t.mem (a + 1).toNat = hiByte v := by
  obtain ⟨s1, h1, h⟩ := bind_eq_ok.1 h
  have hb := busWrite_busOnly h1
  exact busWrite_self h (hb.2 hw) (by rw [busTarget_of_busOnly hb, hr])

theorem storeMem_busOnly {w : Width} {m : MemMode} {v : Word} {s t : State} (h : storeMem w m v s = .ok t) :
    BusOnly s t := by
  obtain ⟨⟨ea, s1⟩, h1, h⟩ := bind_eq_ok.1 h
  exact (effAddr_readOnly h1).busOnly.trans (memWriteW_busOnly h)

/-! ## The stacks: what a push and a pull change -/

theorem push8_spec {v : Byte} {s t : State} (h : push8 v s = .ok t) :
    t = { s with sp := s.sp - 1, mem := t.mem, events := t.events } ∧ (Memory.wf s.mem = true → Memory.wf t.mem = true) := by
  obtain ⟨s1, h1, h⟩ := bind_eq_ok.1 h
  cases h
  have hb := busWrite_busOnly h1
  refine ⟨?_, hb.2⟩
  generalize s1.mem = m, s1.events = e at *
  rw [hb.1]

theorem pop8_spec {v : Byte} {s t : State} (h : pop8 s = .ok (v, t)) :
    t = { s with sp := s.sp + 1, events := t.events } := busRead_readOnly h

theorem rpush8_spec {v : Byte} {s t : State} (h : rpush8 v s = .ok t) :
    t = { s with r := s.r - 1, mem := t.mem, events := t.events } ∧ (Memory.wf s.mem = true → Memory.wf t.mem = true) := by
  obtain ⟨s1, h1, h⟩ := bind_eq_ok.1 h
  cases h
  have hb := busWrite_busOnly h1
  refine ⟨?_, hb.2⟩
  generalize s1.mem = m, s1.events = e at *
  rw [hb.1]

theorem rpop8_spec {v : Byte} {s t : State} (h : rpop8 s = .ok (v, t)) :
    t = { s with r := s.r + 1, events := t.events } := busRead_readOnly h

end Sys2Proof.Machine
end

