-- ==== Sys2Proof/Laws/Exec.lean ====
section
/-! SUPPORT. What an instruction does is what its operation does with its operand, said once for all rows. -/

namespace Sys2Proof.Machine

/-- What an operation does with an addressing mode; a pair that is no row of the table is left at the state. -/
def perform (op : Op) (o : Operand) (s : State) : Except Fault State :=
  match op, o with
  | .brk, .implied => opBrk s
  | .ora, .mem m => opOra (.mem m) s
  | .nxt, .implied => opNxt s
  | .tsb, .mem m => opTsb m s
  | .asl, .mem m => opAsl (.mem m) s
  | .php, .implied => opPhp s
  | .ora, .immM v => opOra (.imm v) s
  | .asl, .acc => opAsl .acc s
  | .rhi, .implied => opRhi s
  | .mul, .mem m => opMul m s
  | .bpl, .rel b => opBpl b s
  | .trb, .mem m => opTrb m s
  | .clc, .implied => opClc s
  | .inc, .acc => opInc .acc s
  | .rhx, .implied => opRhx s
  | .jsr, .mem (.abs w) => opJsr w s
  | .and, .mem m => opAnd (.mem m) s
  | .ent, .mem (.abs w) => opEnt w s
  | .bit, .mem m => opBit m s
  | .rol, .mem m => opRol (.mem m) s
  | .plp, .implied => opPlp s
  | .and, .immM v => opAnd (.imm v) s
  | .rol, .acc => opRol .acc s
  | .rli, .implied => opRli s
  | .bmi, .rel b => opBmi b s
  | .sec, .implied => opSec s
  | .dec, .acc => opDec .acc s
  | .rlx, .implied => opRlx s
  | .rti, .implied => opRti s
  | .eor, .mem m => opEor (.mem m) s
  | .nxa, .implied => opNxa s
  | .rea, .mem (.abs w) => opRea w s
  | .lsr, .mem m => opLsr (.mem m) s
  | .pha, .implied => opPha s
  | .eor, .immM v => opEor (.imm v) s
  | .lsr, .acc => opLsr .acc s
  | .rha, .implied => opRha s
  | .jmp, .mem (.abs w) => opJmp w s
  | .div, .mem m => opDiv m s
  | .bvc, .rel b => opBvc b s
  | .rei, .mem (.izp z) => opRei z s
  | .cli, .implied => opCli s
  | .phy, .implied => opPhy s
  | .rhy, .implied => opRhy s
  | .txi, .implied => opTxi s
  | .rts, .implied => opRts s
  | .adc, .mem m => opAdc (.mem m) s
  | .per, .rel16 w => opPer w s
  | .stz, .mem m => opStz m s
  | .ror, .mem m => opRor (.mem m) s
  | .pla, .implied => opPla s
  | .adc, .immM v => opAdc (.imm v) s
  | .ror, .acc => opRor .acc s
  | .rla, .implied => opRla s
  | .jmp, .iabs w => opJmpIndirect w s
  | .bvs, .rel b => opBvs b s
  | .sei, .implied => opSei s
  | .ply, .implied => opPly s
  | .rly, .implied => opRly s
  | .jmp, .iabsX w => opJmpIndexed w s
  | .bra, .rel b => opBra b s
  | .sta, .mem m => opSta m s
  | .rer, .rel16 w => opRer w s
  | .sty, .mem m => opSty m s
  | .stx, .mem m => opStx m s
  | .dey, .implied => opDey s
  | .bit, .immM v => opBitImm v s
  | .txa, .implied => opTxa s
  | .txr, .implied => opTxr s
  | .zea, .implied => opZea s
  | .bcc, .rel b => opBcc b s
  | .tya, .implied => opTya s
  | .txs, .implied => opTxs s
  | .txy, .implied => opTxy s
  | .sea, .implied => opSea s
  | .ldy, .immX v => opLdy (.imm v) s
  | .lda, .mem m => opLda (.mem m) s
  | .ldx, .immX v => opLdx (.imm v) s
  | .ldy, .mem m => opLdy (.mem m) s
  | .ldx, .mem m => opLdx (.mem m) s
  | .tay, .implied => opTay s
  | .lda, .immM v => opLda (.imm v) s
  | .tax, .implied => opTax s
  | .trx, .implied => opTrx s
  | .tda, .implied => opTda s
  | .bcs, .rel b => opBcs b s
  | .clv, .implied => opClv s
  | .tsx, .implied => opTsx s
  | .tyx, .implied => opTyx s
  | .tad, .implied => opTad s
  | .cpy, .immX v => opCpy (.imm v) s
  | .cmp, .mem m => opCmp (.mem m) s
  | .rep, .imm8 k => opRep k s
  | .cpy, .mem m => opCpy (.mem m) s
  | .dec, .mem m => opDec (.mem m) s
  | .iny, .implied => opIny s
  | .cmp, .immM v => opCmp (.imm v) s
  | .dex, .implied => opDex s
  | .wai, .implied => opWai s
  | .pld, .implied => opPld s
  | .bne, .rel b => opBne b s
  | .pei, .mem (.izp z) => opPei z s
  | .cld, .implied => opCld s
  | .phx, .implied => opPhx s
  | .stp, .implied => opStp s
  | .tix, .implied => opTix s
  | .phd, .implied => opPhd s
  | .cpx, .immX v => opCpx (.imm v) s
  | .sbc, .mem m => opSbc (.mem m) s
  | .sep, .imm8 k => opSep k s
  | .cpx, .mem m => opCpx (.mem m) s
  | .inc, .mem m => opInc (.mem m) s
  | .inx, .implied => opInx s
  | .sbc, .immM v => opSbc (.imm v) s
  | .nop, .implied => opNop s
  | .xba, .implied => opXba s
  | .mmu, .imm8 k => opMmu k s
  | .beq, .rel b => opBeq b s
  | .pea, .mem (.abs w) => opPea w s
  | .sed, .implied => opSed s
  | .plx, .implied => opPlx s
  | .xce, .implied => opXce s
  | .jsr, .iabsX w => opJsrIndexed w s
  | .illegal, .implied => opIllegal s
  | _, _ => .ok s

/-- An instruction does what its operation does with its operand. -/
theorem exec_eq_perform (i : Instr) (s : State) : exec i s = finish (perform i.op i.operand s) := by
  cases i <;> rfl

/-! ## By operation: an instruction of a group does what its operation does with its operand -/

theorem exec_ora {i : Instr} {src : Src} (s : State) (h : i.op = .ora) (hs : i.operand.src? = some src) :
    exec i s = finish (opOra src s) := by
  cases i <;> first | (cases h; done) | (cases hs; rfl)

theorem exec_and {i : Instr} {src : Src} (s : State) (h : i.op = .and) (hs : i.operand.src? = some src) :
    exec i s = finish (opAnd src s) := by
  cases i <;> first | (cases h; done) | (cases hs; rfl)

theorem exec_eor {i : Instr} {src : Src} (s : State) (h : i.op = .eor) (hs : i.operand.src? = some src) :
    exec i s = finish (opEor src s) := by
  cases i <;> first | (cases h; done) | (cases hs; rfl)

theorem exec_adc {i : Instr} {src : Src} (s : State) (h : i.op = .adc) (hs : i.operand.src? = some src) :
    exec i s = finish (opAdc src s) := by
  cases i <;> first | (cases h; done) | (cases hs; rfl)

theorem exec_sbc {i : Instr} {src : Src} (s : State) (h : i.op = .sbc) (hs : i.operand.src? = some src) :
    exec i s = finish (opSbc src s) := by
  cases i <;> first | (cases h; done) | (cases hs; rfl)

theorem exec_cmp {i : Instr} {src : Src} (s : State) (h : i.op = .cmp) (hs : i.operand.src? = some src) :
    exec i s = finish (opCmp src s) := by
  cases i <;> first | (cases h; done) | (cases hs; rfl)

theorem exec_cpx {i : Instr} {src : Src} (s : State) (h : i.op = .cpx) (hs : i.operand.src? = some src) :
    exec i s = finish (opCpx src s) := by
  cases i <;> first | (cases h; done) | (cases hs; rfl)

theorem exec_cpy {i : Instr} {src : Src} (s : State) (h : i.op = .cpy) (hs : i.operand.src? = some src) :
    exec i s = finish (opCpy src s) := by
  cases i <;> first | (cases h; done) | (cases hs; rfl)

theorem exec_lda {i : Instr} {src : Src} (s : State) (h : i.op = .lda) (hs : i.operand.src? = some src) :
    exec i s = finish (opLda src s) := by
  cases i <;> first | (cases h; done) | (cases hs; rfl)

theorem exec_ldx {i : Instr} {src : Src} (s : State) (h : i.op = .ldx) (hs : i.operand.src? = some src) :
    exec i s = finish (opLdx src s) := by
  cases i <;> first | (cases h; done) | (cases hs; rfl)

theorem exec_ldy {i : Instr} {src : Src} (s : State) (h : i.op = .ldy) (hs : i.operand.src? = some src) :
    exec i s = finish (opLdy src s) := by
  cases i <;> first | (cases h; done) | (cases hs; rfl)

theorem exec_asl {i : Instr} {loc : Loc} (s : State) (h : i.op = .asl) (hs : i.operand.loc? = some loc) :
    exec i s = finish (opAsl loc s) := by
  cases i <;> first | (cases h; done) | (cases hs; rfl)

theorem exec_lsr {i : Instr} {loc : Loc} (s : State) (h : i.op = .lsr) (hs : i.operand.loc? = some loc) :
    exec i s = finish (opLsr loc s) := by
  cases i <;> first | (cases h; done) | (cases hs; rfl)

theorem exec_rol {i : Instr} {loc : Loc} (s : State) (h : i.op = .rol) (hs : i.operand.loc? = some loc) :
    exec i s = finish (opRol loc s) := by
  cases i <;> first | (cases h; done) | (cases hs; rfl)

theorem exec_ror {i : Instr} {loc : Loc} (s : State) (h : i.op = .ror) (hs : i.operand.loc? = some loc) :
    exec i s = finish (opRor loc s) := by
  cases i <;> first | (cases h; done) | (cases hs; rfl)

theorem exec_inc {i : Instr} {loc : Loc} (s : State) (h : i.op = .inc) (hs : i.operand.loc? = some loc) :
    exec i s = finish (opInc loc s) := by
  cases i <;> first | (cases h; done) | (cases hs; rfl)

theorem exec_dec {i : Instr} {loc : Loc} (s : State) (h : i.op = .dec) (hs : i.operand.loc? = some loc) :
    exec i s = finish (opDec loc s) := by
  cases i <;> first | (cases h; done) | (cases hs; rfl)

theorem exec_bit {i : Instr} {m : MemMode} (s : State) (h : i.op = .bit) (hs : i.operand = .mem m) :
    exec i s = finish (opBit m s) := by
  rw [exec_eq_perform, h, hs]; rfl

theorem exec_tsb {i : Instr} {m : MemMode} (s : State) (h : i.op = .tsb) (hs : i.operand = .mem m) :
    exec i s = finish (opTsb m s) := by
  rw [exec_eq_perform, h, hs]; rfl

theorem exec_trb {i : Instr} {m : MemMode} (s : State) (h : i.op = .trb) (hs : i.operand = .mem m) :
    exec i s = finish (opTrb m s) := by
  rw [exec_eq_perform, h, hs]; rfl

theorem exec_sta {i : Instr} {m : MemMode} (s : State) (h : i.op = .sta) (hs : i.operand = .mem m) :
    exec i s = finish (opSta m s) := by
  rw [exec_eq_perform, h, hs]; rfl

theorem exec_stx {i : Instr} {m : MemMode} (s : State) (h : i.op = .stx) (hs : i.operand = .mem m) :
    exec i s = finish (opStx m s) := by
  rw [exec_eq_perform, h, hs]; rfl

theorem exec_sty {i : Instr} {m : MemMode} (s : State) (h : i.op = .sty) (hs : i.operand = .mem m) :
    exec i s = finish (opSty m s) := by
  rw [exec_eq_perform, h, hs]; rfl

theorem exec_stz {i : Instr} {m : MemMode} (s : State) (h : i.op = .stz) (hs : i.operand = .mem m) :
    exec i s = finish (opStz m s) := by
  rw [exec_eq_perform, h, hs]; rfl

theorem exec_mul {i : Instr} {m : MemMode} (s : State) (h : i.op = .mul) (hs : i.operand = .mem m) :
    exec i s = finish (opMul m s) := by
  rw [exec_eq_perform, h, hs]; rfl

theorem exec_div {i : Instr} {m : MemMode} (s : State) (h : i.op = .div) (hs : i.operand = .mem m) :
    exec i s = finish (opDiv m s) := by
  rw [exec_eq_perform, h, hs]; rfl

end Sys2Proof.Machine
end

