-- ==== Sys2Proof/Laws/Results.lean ====
section
/-! SUPPORT. Register reads, results and flags at each width, in the words of Safety.lean. -/

namespace Sys2Proof.Machine

/-! ## Widths -/

theorem wM_of_fM {s : State} (h : s.fM = true) : s.wM = .w8 := by simp [State.wM, h]

theorem wM_of_not_fM {s : State} (h : s.fM = false) : s.wM = .w16 := by simp [State.wM, h]

theorem wX_of_fX {s : State} (h : s.fX = true) : s.wX = .w8 := by simp [State.wX, h]

theorem wX_of_not_fX {s : State} (h : s.fX = false) : s.wX = .w16 := by simp [State.wX, h]

@[simp] theorem cut_w16 (v : Word) : cut .w16 v = v := rfl

theorem cut_w8 (v : Word) : cut .w8 v = zext (loByte v) := rfl

@[simp] theorem acc_w8 (s : State) : s.acc .w8 = zext s.al := by simp [State.acc, cut, State.a16]

@[simp] theorem acc_w16 (s : State) : s.acc .w16 = mkWord s.al s.ah := rfl

@[simp] theorem zext_eq_zero (b : Byte) : zext b = 0#16 ↔ b = 0#8 := by
  constructor
  · intro h
    have := congrArg loByte h
    rw [loByte_zext] at this
    exact this
  · rintro rfl; rfl

@[simp] theorem topBit_w8 (v : Word) : topBit .w8 v = (loByte v).msb := by
  simp [topBit, Width.bits, loByte, BitVec.msb_eq_getLsbD_last]

@[simp] theorem topBit_w16 (v : Word) : topBit .w16 v = v.msb := by
  simp [topBit, Width.bits, BitVec.msb_eq_getLsbD_last]

@[simp] theorem mkWord_zext (b : Byte) : mkWord b 0 = zext b := by
  apply BitVec.eq_of_toNat_eq
  show ((0 : Byte) ++ b : BitVec (8 + 8)).toNat = _
  rw [BitVec.toNat_append]
  simp [zext]
  have := b.isLt
  omega

/-! ## Results with N and Z -/

theorem setAcc_setNZ_w8 (s : State) (v : Word) : (s.setAcc .w8 v).setNZ .w8 v = s.accResult8 (loByte v) := by
  simp [State.setAcc, State.setNZ, State.accResult8, cut_w8, beq_eq_decide]

theorem setAcc_setNZ_w16 (s : State) (v : Word) : (s.setAcc .w16 v).setNZ .w16 v = s.accResult16 v := by
  simp [State.setAcc, State.setNZ, State.accResult16, beq_eq_decide]

theorem setX_setNZ_w8 (s : State) (v : Word) : (s.setX .w8 v).setNZ .w8 v = s.xResult8 (loByte v) := by
  simp [State.setX, State.setNZ, State.xResult8, cut_w8, beq_eq_decide]

theorem setX_setNZ_w16 (s : State) (v : Word) : (s.setX .w16 v).setNZ .w16 v = s.xResult16 v := by
  simp [State.setX, State.setNZ, State.xResult16, beq_eq_decide]

theorem setY_setNZ_w8 (s : State) (v : Word) : (s.setY .w8 v).setNZ .w8 v = s.yResult8 (loByte v) := by
  simp [State.setY, State.setNZ, State.yResult8, cut_w8, beq_eq_decide]

theorem setY_setNZ_w16 (s : State) (v : Word) : (s.setY .w16 v).setNZ .w16 v = s.yResult16 v := by
  simp [State.setY, State.setNZ, State.yResult16, beq_eq_decide]

/-- A byte read as an operand of width 8 is zero-extended. -/
theorem readSrc_w8 {src : Src} {s t : State} {m : Word} (h : readSrc .w8 src s = .ok (m, t)) : m = zext (loByte m) := by
  cases src with
  | imm v => cases h; simp [cut_w8]
  | mem mm =>
    obtain ⟨⟨ea, s1⟩, h1, h⟩ := bind_eq_ok.1 h
    obtain ⟨⟨b, s2⟩, h2, h⟩ := bind_eq_ok.1 h
    cases h
    simp

/-! ## Read-modify-write -/

theorem memReadW_w8 {a : Word} {s t : State} {m : Word} (h : memReadW .w8 a s = .ok (m, t)) : m = zext (loByte m) := by
  obtain ⟨⟨b, s2⟩, h2, h⟩ := bind_eq_ok.1 h
  cases h
  simp

/-- The operand of an update fits its width. -/
theorem Updated.operand_lt {w : Width} {loc : Loc} {s t : State} {v r : Word} (h : Updated w loc s v r t) :
    v.toNat < 2 ^ w.bits := by
  cases w with
  | w16 => exact v.isLt
  | w8 =>
    have hz : ∀ b : Byte, (zext b).toNat < 2 ^ Width.bits .w8 := fun b => by
      have := b.isLt
      simp only [zext, BitVec.toNat_setWidth, Width.bits]
      omega
    cases loc with
    | acc => rw [h.1, acc_w8]; exact hz _
    | mem m => obtain ⟨ea, s1, s2, -, h2, -⟩ := h; rw [memReadW_w8 h2]; exact hz _

/-- An update that writes `f` of its operand is what `modifyLoc` does. -/
theorem Updated.modifyLoc_eq {w : Width} {loc : Loc} {s t : State} {v r : Word} {f : Word → Word}
    (h : Updated w loc s v r t) (hr : r = f v) : modifyLoc w loc f s = .ok (v, t) := by
  subst hr
  cases loc with
  | acc =>
    obtain ⟨rfl, rfl⟩ := h
    cases w <;> rfl
  | mem m =>
    obtain ⟨ea, s1, s2, h1, h2, h3⟩ := h
    simp only [modifyLoc, h1, h2, h3, ok_bind]
    rfl

/-- What an update leaves. -/
theorem Updated.frame {w : Width} {loc : Loc} {s t : State} {v r : Word} (h : Updated w loc s v r t) :
    UpdateFrame w loc s t := by
  cases loc with
  | acc =>
    obtain ⟨-, rfl⟩ := h
    cases w <;> exact ⟨rfl, fun h => (by cases h <;> rfl)⟩
  | mem m =>
    obtain ⟨ea, s1, s2, h1, h2, h3⟩ := h
    have hr := (effAddr_readOnly h1).trans (memReadW_readOnly h2)
    refine ⟨(hr.busOnly.trans (memWriteW_busOnly h3)).1, fun ea' s1' h1' hw b hb hb' => ?_⟩
    rw [h1] at h1'
    cases h1'
    have hm : s2.mem = s.mem := by rw [hr]
    rw [← hm, memWriteW_other h3 (hm ▸ hw) b hb hb']

end Sys2Proof.Machine
end

