-- ==== Sys2Proof/Laws/Arith.lean ====
section
/-! SUPPORT. The arithmetic of ADC, SBC, MUL and DIV: what each computation answers, in numbers. -/

namespace Sys2Proof.Machine

/-- The overflow formula of `AddBin` on sign bits: operands of one sign, a result of the other. -/
theorem overflow_formula (x a m : Bool) : ((a ^^ x) && (m ^^ x)) = decide (a = m ∧ x ≠ a) := by cases a <;> cases m <;> cases x <;> rfl
/-- Binary addition at width 8 (41_arith_logic.md R214). -/
theorem addBin_w8 (a m : Byte) (c : Bool) : addBin .w8 (zext a) (zext m) c = 
   let sum := a.toNat + m.toNat + c.toNat
   let r : Byte := BitVec.ofNat 8 sum
   ⟨zext r, decide (255 < sum), decide (a.msb = m.msb ∧ r.msb ≠ a.msb)⟩ := by
  have h1 := a.isLt
  have h2 := m.isLt
  simp only [addBin, Width.bits, topBit_w8, zext, BitVec.toNat_setWidth]
  rw [Nat.mod_eq_of_lt (by omega : a.toNat < 2^16), Nat.mod_eq_of_lt (by omega : m.toNat < 2^16)]
  congr 1
  · apply BitVec.eq_of_toNat_eq; simp
  · have : loByte (BitVec.ofNat 16 ((a.toNat + m.toNat + c.toNat) % 2^8)) = BitVec.ofNat 8 (a.toNat + m.toNat + c.toNat) := by
      apply BitVec.eq_of_toNat_eq; simp [loByte]
    generalize BitVec.ofNat 16 ((a.toNat + m.toNat + c.toNat) % 2^8) = y at this ⊢
    rw [← this]
    simp only [loByte, BitVec.setWidth_and, BitVec.setWidth_xor, BitVec.msb_and, BitVec.msb_xor]
    have ez : ∀ b : Byte, BitVec.setWidth 8 (BitVec.setWidth 16 b) = b := loByte_zext
    rw [ez, ez]
    exact overflow_formula _ _ _
/-- Binary addition at width 16 (41_arith_logic.md R214). -/
theorem addBin_w16 (a m : Word) (c : Bool) : addBin .w16 a m c = 
   let sum := a.toNat + m.toNat + c.toNat
   let r : Word := BitVec.ofNat 16 sum
   ⟨r, decide (65535 < sum), decide (a.msb = m.msb ∧ r.msb ≠ a.msb)⟩ := by
  have h1 := a.isLt
  have h2 := m.isLt
  simp only [addBin, Width.bits, topBit_w16]
  have : (BitVec.ofNat 16 ((a.toNat + m.toNat + c.toNat) % 2^16)) = BitVec.ofNat 16 (a.toNat + m.toNat + c.toNat) := by
      apply BitVec.eq_of_toNat_eq; simp
  rw [this]
  congr 1
  · simp
    generalize (BitVec.ofNat 16 (a.toNat + m.toNat + c.toNat)).msb = x
    cases a.msb <;> cases m.msb <;> cases x <;> rfl
/-- Binary subtraction at width 8 (41_arith_logic.md R217). -/
theorem subBin_w8 (a m : Byte) (c : Bool) : subBin .w8 (zext a) (zext m) c = 
   let borrow := 1 - c.toNat
   let r : Byte := a - m - BitVec.ofNat 8 borrow
   ⟨zext r, decide (m.toNat + borrow ≤ a.toNat), decide (a.msb ≠ m.msb ∧ r.msb ≠ a.msb)⟩ := by
  have h1 := a.isLt
  have h2 := m.isLt
  have : cut .w8 (~~~ (zext m)) = zext (~~~ m) := by
    simp [cut, loByte, zext, BitVec.setWidth_not]
  rw [subBin, this, addBin_w8]
  have hc : c.toNat ≤ 1 := by cases c <;> decide
  have : BitVec.ofNat 8 (a.toNat + (~~~m).toNat + c.toNat) = a - m - BitVec.ofNat 8 (1 - c.toNat) := by
    apply BitVec.eq_of_toNat_eq; simp [BitVec.toNat_not, BitVec.toNat_sub]; omega
  simp only [this]
  congr 1
  · simp [BitVec.toNat_not]; omega
  · simp
    generalize (a - m - BitVec.ofNat 8 (1 - c.toNat)).msb = x
    cases a.msb <;> cases m.msb <;> cases x <;> rfl
/-- Binary subtraction at width 16 (41_arith_logic.md R217). -/
theorem subBin_w16 (a m : Word) (c : Bool) : subBin .w16 a m c = 
   let borrow := 1 - c.toNat
   let r : Word := a - m - BitVec.ofNat 16 borrow
   ⟨r, decide (m.toNat + borrow ≤ a.toNat), decide (a.msb ≠ m.msb ∧ r.msb ≠ a.msb)⟩ := by
  have h1 := a.isLt
  have h2 := m.isLt
  rw [subBin, cut_w16, addBin_w16]
  have hc : c.toNat ≤ 1 := by cases c <;> decide
  have : BitVec.ofNat 16 (a.toNat + (~~~m).toNat + c.toNat) = a - m - BitVec.ofNat 16 (1 - c.toNat) := by
    apply BitVec.eq_of_toNat_eq; simp [BitVec.toNat_not, BitVec.toNat_sub]; omega
  simp only [this]
  congr 1
  · simp [BitVec.toNat_not]; omega
  · simp
    generalize (a - m - BitVec.ofNat 16 (1 - c.toNat)).msb = x
    cases a.msb <;> cases m.msb <;> cases x <;> rfl

/-! ## Decimal digits -/

/-- The digit loop of decimal addition, from any numbering of its carries and of the digits of its result. -/
theorem addDigits_eq {n a m r : Nat} {c : Nat → Bool} (hr : r < 16 ^ n)
    (h : ∀ k < n, c (k + 1) = decide (15 < if 9 < a / 16 ^ k % 16 + m / 16 ^ k % 16 + (c k).toNat
          then a / 16 ^ k % 16 + m / 16 ^ k % 16 + (c k).toNat + 6 else a / 16 ^ k % 16 + m / 16 ^ k % 16 + (c k).toNat) ∧
        r / 16 ^ k % 16 = (if 9 < a / 16 ^ k % 16 + m / 16 ^ k % 16 + (c k).toNat
          then a / 16 ^ k % 16 + m / 16 ^ k % 16 + (c k).toNat + 6
          else a / 16 ^ k % 16 + m / 16 ^ k % 16 + (c k).toNat) % 16) :
    addDigits n a m (c 0) = (r, c n) := by
  induction n generalizing a m r c with
  | zero => simp at hr; simp [addDigits, hr]
  | succ n ih =>
    have h0 := h 0 (by omega)
    simp only [Nat.pow_zero, Nat.div_one, Nat.zero_add] at h0
    have hs := ih (a := a / 16) (m := m / 16) (r := r / 16) (c := fun k => c (k + 1))
      (by rw [Nat.pow_succ] at hr; omega)
      (fun k hk => by
        have := h (k + 1) (by omega)
        simp only [Nat.pow_succ', ← Nat.div_div_eq_div_mul] at this
        exact this)
    simp only [Nat.zero_add] at hs
    unfold addDigits
    simp only [gt_iff_lt]
    rw [← h0.1, ← h0.2, hs]
    simp only
    congr 1
    omega

/-- The digit loop of decimal subtraction, from any numbering of its borrows and of the digits of its result. -/
theorem subDigits_eq {n a m r : Nat} {b : Nat → Bool} (hr : r < 16 ^ n)
    (h : ∀ k < n, b (k + 1) = decide (((a / 16 ^ k % 16 : Nat) : Int) - (m / 16 ^ k % 16 : Nat) - ((b k).toNat : Nat) < 0) ∧
        ((r / 16 ^ k % 16 : Nat) : Int) = (if ((a / 16 ^ k % 16 : Nat) : Int) - (m / 16 ^ k % 16 : Nat) - ((b k).toNat : Nat) < 0
          then ((a / 16 ^ k % 16 : Nat) : Int) - (m / 16 ^ k % 16 : Nat) - ((b k).toNat : Nat) + 10
          else ((a / 16 ^ k % 16 : Nat) : Int) - (m / 16 ^ k % 16 : Nat) - ((b k).toNat : Nat)) % 16) :
    subDigits n a m (b 0) = (r, b n) := by
  induction n generalizing a m r b with
  | zero => simp at hr; simp [subDigits, hr]
  | succ n ih =>
    have h0 := h 0 (by omega)
    simp only [Nat.pow_zero, Nat.div_one, Nat.zero_add] at h0
    have hs := ih (a := a / 16) (m := m / 16) (r := r / 16) (b := fun k => b (k + 1))
      (by rw [Nat.pow_succ] at hr; omega)
      (fun k hk => by
        have := h (k + 1) (by omega)
        simp only [Nat.pow_succ', ← Nat.div_div_eq_div_mul] at this
        exact this)
    simp only [Nat.zero_add] at hs
    unfold subDigits
    simp only [decide_eq_true_eq]
    rw [← h0.1, ← h0.2, hs]
    simp only
    congr 1
    omega

end Sys2Proof.Machine
end

