-- ==== Sys2Proof/Laws/Stack.lean ====
section
/-! SUPPORT. The two stacks: the pushes and pulls of Ops.lean are those of 45_stack.md R350 and 46_aux_stack.md R380, with
what they leave. -/

namespace Sys2Proof.Machine

/-! ## The data stack -/

theorem push8_of_pushes {v : Byte} {s t : State} (h : PushesByte v s t) : push8 v s = .ok t := by
  obtain ⟨u, h1, rfl⟩ := h
  simp only [push8, State.dstackAddr, h1, ok_bind]
  rfl

theorem push16_of_pushes {v : Word} {s t : State} (h : PushesWord v s t) : push16 v s = .ok t := by
  obtain ⟨u, h1, h2⟩ := h
  simp only [push16, push8_of_pushes h1, ok_bind, push8_of_pushes h2]

theorem pushW_of_pushes {w : Width} {v : Word} {s t : State} (h : Pushes w v s t) : pushW w v s = .ok t := by
  cases w
  · exact push8_of_pushes h
  · exact push16_of_pushes h

theorem pushFrame_byte {v : Byte} {s t : State} (h : PushesByte v s t) : PushFrame 1 s t := by
  have hs := push8_spec (push8_of_pushes h)
  obtain ⟨u, h1, rfl⟩ := h
  refine ⟨hs.1, fun hw b hb => busWrite_other h1 hw b ?_⟩
  have := hb 0 (by omega)
  simpa using this

/-- Two pushes make one push of as many bytes. -/
theorem PushFrame.trans {n k : Nat} {s u t : State} (h1 : PushFrame n s u) (h2 : PushFrame k u t)
    (hw : Memory.wf s.mem = true → Memory.wf u.mem = true) : PushFrame (n + k) s t := by
  have hsp : u.sp = s.sp - BitVec.ofNat 8 n := by rw [h1.1]
  have hp : u.params = s.params := by rw [h1.1]
  have hadd : ∀ j, s.sp - BitVec.ofNat 8 (n + j) = u.sp - BitVec.ofNat 8 j := by
    intro j
    rw [hsp, BitVec.ofNat_add]
    bv_omega
  refine ⟨?_, fun h b hb => ?_⟩
  · rw [h2.1, ← hadd k, h1.1]
  · rw [h2.2 (hw h) b fun j hj => by rw [← hadd j, hp]; exact hb (n + j) (by omega),
      h1.2 h b fun j hj => hb j (by omega)]

theorem pushesByte_wf {v : Byte} {s t : State} (h : PushesByte v s t) : Memory.wf s.mem = true → Memory.wf t.mem = true :=
  (push8_spec (push8_of_pushes h)).2

theorem pushFrame_word {v : Word} {s t : State} (h : PushesWord v s t) : PushFrame 2 s t := by
  obtain ⟨u, h1, h2⟩ := h
  exact (pushFrame_byte h1).trans (pushFrame_byte h2) (pushesByte_wf h1)

theorem pushesWord_wf {v : Word} {s t : State} (h : PushesWord v s t) : Memory.wf s.mem = true → Memory.wf t.mem = true := by
  obtain ⟨u, h1, h2⟩ := h
  exact fun hw => pushesByte_wf h2 (pushesByte_wf h1 hw)

theorem pushFrame_of_pushes {w : Width} {v : Word} {s t : State} (h : Pushes w v s t) : PushFrame w.bytes s t := by
  cases w
  · exact pushFrame_byte h
  · exact pushFrame_word h

theorem pop8_of_pulls {v : Byte} {s t : State} (h : PullsByte v s t) : pop8 s = .ok (v, t) := h

theorem pop16_of_pulls {v : Word} {s t : State} (h : PullsWord v s t) : pop16 s = .ok (v, t) := by
  obtain ⟨lo, hi, u, h1, h2, rfl⟩ := h
  simp only [pop16, pop8_of_pulls h1, ok_bind, pop8_of_pulls h2]
  rfl

theorem popW_of_pulls {w : Width} {v : Word} {s t : State} (h : Pulls w v s t) : popW w s = .ok (v, t) := by
  cases w
  · obtain ⟨b, h1, rfl⟩ := h
    simp only [popW, pop8_of_pulls h1, ok_bind]
    rfl
  · exact pop16_of_pulls h

theorem pullsByte_frame {v : Byte} {s t : State} (h : PullsByte v s t) :
    t = { s with sp := s.sp + 1, events := t.events } := pop8_spec h

theorem pullsWord_frame {v : Word} {s t : State} (h : PullsWord v s t) :
    t = { s with sp := s.sp + 2, events := t.events } := by
  obtain ⟨lo, hi, u, h1, h2, rfl⟩ := h
  have e1 := pullsByte_frame h1
  have e2 := pullsByte_frame h2
  have hsp : u.sp + 1 = s.sp + 2 := by rw [e1]; bv_omega
  rw [e2, hsp, e1]

theorem pulls_frame {w : Width} {v : Word} {s t : State} (h : Pulls w v s t) :
    t = { s with sp := s.sp + BitVec.ofNat 8 w.bytes, events := t.events } := by
  cases w
  · obtain ⟨b, h1, rfl⟩ := h
    exact pullsByte_frame h1
  · exact pullsWord_frame h

/-! ## The auxiliary stack -/

theorem rpush8_of_pushes {v : Byte} {s t : State} (h : RPushesByte v s t) : rpush8 v s = .ok t := by
  obtain ⟨u, h1, rfl⟩ := h
  simp only [rpush8, State.rstackAddr, h1, ok_bind]
  rfl

theorem rpush16_of_pushes {v : Word} {s t : State} (h : RPushesWord v s t) : rpush16 v s = .ok t := by
  obtain ⟨u, h1, h2⟩ := h
  simp only [rpush16, rpush8_of_pushes h1, ok_bind, rpush8_of_pushes h2]

theorem rpushW_of_pushes {w : Width} {v : Word} {s t : State} (h : RPushes w v s t) : rpushW w v s = .ok t := by
  cases w
  · exact rpush8_of_pushes h
  · exact rpush16_of_pushes h

theorem rpushFrame_byte {v : Byte} {s t : State} (h : RPushesByte v s t) : RPushFrame 1 s t := by
  have hs := rpush8_spec (rpush8_of_pushes h)
  obtain ⟨u, h1, rfl⟩ := h
  refine ⟨hs.1, fun hw b hb => busWrite_other h1 hw b ?_⟩
  have := hb 0 (by omega)
  simpa using this

theorem rpushesByte_wf {v : Byte} {s t : State} (h : RPushesByte v s t) :
    Memory.wf s.mem = true → Memory.wf t.mem = true := (rpush8_spec (rpush8_of_pushes h)).2

theorem rpushFrame_word {v : Word} {s t : State} (h : RPushesWord v s t) : RPushFrame 2 s t := by
  obtain ⟨u, h1, h2⟩ := h
  have f1 := rpushFrame_byte h1
  have f2 := rpushFrame_byte h2
  have hr : u.r = s.r - 1 := by rw [f1.1]; rfl
  have hp : u.params = s.params := by rw [f1.1]
  refine ⟨?_, fun hw b hb => ?_⟩
  · rw [f2.1, hr, f1.1]
    congr 1
    bv_omega
  · rw [f2.2 (rpushesByte_wf h1 hw) b fun j hj => ?_, f1.2 hw b fun j hj => hb j (by omega)]
    have := hb 1 (by omega)
    have h0 : j = 0 := by omega
    subst h0
    simpa [hr, hp] using this

theorem rpushFrame_of_pushes {w : Width} {v : Word} {s t : State} (h : RPushes w v s t) : RPushFrame w.bytes s t := by
  cases w
  · exact rpushFrame_byte h
  · exact rpushFrame_word h

theorem rpop8_of_pulls {v : Byte} {s t : State} (h : RPullsByte v s t) : rpop8 s = .ok (v, t) := h

theorem rpop16_of_pulls {v : Word} {s t : State} (h : RPullsWord v s t) : rpop16 s = .ok (v, t) := by
  obtain ⟨lo, hi, u, h1, h2, rfl⟩ := h
  simp only [rpop16, rpop8_of_pulls h1, ok_bind, rpop8_of_pulls h2]
  rfl

theorem rpopW_of_pulls {w : Width} {v : Word} {s t : State} (h : RPulls w v s t) : rpopW w s = .ok (v, t) := by
  cases w
  · obtain ⟨b, h1, rfl⟩ := h
    simp only [rpopW, rpop8_of_pulls h1, ok_bind]
    rfl
  · exact rpop16_of_pulls h

theorem rpullsByte_frame {v : Byte} {s t : State} (h : RPullsByte v s t) :
    t = { s with r := s.r + 1, events := t.events } := rpop8_spec h

theorem rpullsWord_frame {v : Word} {s t : State} (h : RPullsWord v s t) :
    t = { s with r := s.r + 2, events := t.events } := by
  obtain ⟨lo, hi, u, h1, h2, rfl⟩ := h
  have e1 := rpullsByte_frame h1
  have e2 := rpullsByte_frame h2
  have hr : u.r + 1 = s.r + 2 := by rw [e1]; bv_omega
  rw [e2, hr, e1]

theorem rpulls_frame {w : Width} {v : Word} {s t : State} (h : RPulls w v s t) :
    t = { s with r := s.r + BitVec.ofNat 8 w.bytes, events := t.events } := by
  cases w
  · obtain ⟨b, h1, rfl⟩ := h
    exact rpullsByte_frame h1
  · exact rpullsWord_frame h

/-! ## The status byte -/

theorem byte_of_bits (a b c d e f g h : Bool) :
    let p : Byte := BitVec.ofBool a ++ BitVec.ofBool b ++ BitVec.ofBool c ++ BitVec.ofBool d ++ BitVec.ofBool e ++
      BitVec.ofBool f ++ BitVec.ofBool g ++ BitVec.ofBool h
    p.getLsbD 7 = a ∧ p.getLsbD 6 = b ∧ p.getLsbD 5 = c ∧ p.getLsbD 4 = d ∧ p.getLsbD 3 = e ∧ p.getLsbD 2 = f ∧
      p.getLsbD 1 = g ∧ p.getLsbD 0 = h := by
  revert a b c d e f g h
  decide

theorem getP_isStatusByte (s : State) : IsStatusByte s.getP s := byte_of_bits ..

/-- A status byte is the one the machine pushes. -/
theorem getP_of_isStatusByte {p : Byte} {s : State} (h : IsStatusByte p s) : p = s.getP := by
  have h' := getP_isStatusByte s
  obtain ⟨h7, h6, h5, h4, h3, h2, h1, h0⟩ := h
  obtain ⟨g7, g6, g5, g4, g3, g2, g1, g0⟩ := h'
  apply BitVec.eq_of_getLsbD_eq
  intro k hk
  interval_cases k <;> simp only [*]

/-- `SetP` is the status write of 10_state.md R44. -/
theorem setP_withStatus (s : State) (p : Byte) : s.setP p = s.withStatus p := by
  unfold State.setP State.withStatus State.cutIndex
  cases h : s.fE
  · cases p.getLsbD 4 <;> simp [cut]
  · simp

end Sys2Proof.Machine
end

