-- ==== Sys2Proof/Laws/Runs.lean ====
section
/-! SUPPORT. How an access, an operation and an instruction can end: on a platform whose devices cover the address space they
answer, and elsewhere their one fault is an access at an address that nothing covers. -/

namespace Sys2Proof.Machine

/-- Two states route every transaction alike. -/
def SameBus (s t : State) : Prop := t.devices = s.devices ∧ t.rbWindow = s.rbWindow

theorem SameBus.refl (s : State) : SameBus s s := ⟨rfl, rfl⟩

theorem SameBus.trans {s t u : State} (h : SameBus s t) (h' : SameBus t u) : SameBus s u :=
  ⟨h'.1.trans h.1, h'.2.trans h.2⟩

theorem SameBus.busTarget {s t : State} (h : SameBus s t) (a : Word) : t.busTarget a = s.busTarget a := by
  unfold State.busTarget State.inWindow; rw [h.1, h.2]

theorem SameBus.cover {s t : State} (h : SameBus s t) (hc : s.DevicesCover) : t.DevicesCover := by
  unfold State.DevicesCover; rw [h.1]; exact hc

theorem BusOnly.sameBus {s t : State} (h : BusOnly s t) : SameBus s t := by
  rw [SameBus, h.1]; exact ⟨rfl, rfl⟩

theorem ReadOnly.sameBus {s t : State} (h : ReadOnly s t) : SameBus s t := h.busOnly.sameBus

/-- A computation answers where devices cover the address space, and faults at addresses that nothing covers alone. -/
def Answers {β : Type} (s : State) (r : Except Fault β) : Prop :=
  (s.DevicesCover → ∃ v, r = .ok v) ∧ ∀ f, r = .error f → ∃ a, f = .busUnmapped a ∧ s.busTarget a = .unmapped

/-- It answers so, and the state it answers routes transactions as before. -/
def Runs {β : Type} (out : β → State) (s : State) (r : Except Fault β) : Prop :=
  Answers s r ∧ ∀ v, r = .ok v → SameBus s (out v)

theorem answers_ok {β : Type} (s : State) (v : β) : Answers s (.ok v) :=
  ⟨fun _ => ⟨v, rfl⟩, fun _ h => by cases h⟩

theorem Runs.ok {β : Type} {out : β → State} {s : State} {v : β} (h : SameBus s (out v)) : Runs out s (.ok v) :=
  ⟨answers_ok s v, fun u hu => by cases hu; exact h⟩

theorem Runs.bind {β γ : Type} {out : β → State} {out' : γ → State} {s : State} {x : Except Fault β}
    {f : β → Except Fault γ} (hx : Runs out s x) (hf : ∀ v, x = .ok v → Runs out' (out v) (f v)) :
    Runs out' s (x >>= f) := by
  cases x with
  | error e =>
    refine ⟨⟨fun hc => ?_, fun g hg => hx.1.2 g (by cases hg; rfl)⟩, fun v hv => by cases hv⟩
    obtain ⟨v, hv⟩ := hx.1.1 hc
    cases hv
  | ok v =>
    have hb := hx.2 v rfl
    obtain ⟨⟨h1, h2⟩, h3⟩ := hf v rfl
    refine ⟨⟨fun hc => h1 (hb.cover hc), fun g hg => ?_⟩, fun u hu => hb.trans (h3 u hu)⟩
    obtain ⟨a, ha, hu⟩ := h2 g hg
    exact ⟨a, ha, by rw [← hb.busTarget]; exact hu⟩

/-- A computation may be read from any state that routes transactions alike. -/
theorem Runs.of_sameBus {β : Type} {out : β → State} {s t : State} {r : Except Fault β} (h : SameBus s t)
    (hr : Runs out t r) : Runs out s r := by
  refine ⟨⟨fun hc => hr.1.1 (h.cover hc), fun g hg => ?_⟩, fun v hv => h.trans (hr.2 v hv)⟩
  obtain ⟨a, ha, hu⟩ := hr.1.2 g hg
  exact ⟨a, ha, by rw [← h.busTarget]; exact hu⟩

/-! ## Accesses -/

theorem runs_busRead (a : Word) (s : State) : Runs Prod.snd s (busRead a s) := by
  refine ⟨⟨fun hc => ?_, fun _ hf => ⟨a, busRead_error hf⟩⟩, fun v hv => (busRead_readOnly hv).sameBus⟩
  obtain ⟨v, t, h⟩ := busRead_of_cover hc a
  exact ⟨_, h⟩

theorem runs_busWrite (a : Word) (v : Byte) (s : State) : Runs id s (busWrite a v s) :=
  ⟨⟨fun hc => busWrite_of_cover hc a v, fun _ hf => ⟨a, busWrite_error hf⟩⟩, fun _ hv => (busWrite_busOnly hv).sameBus⟩

theorem runs_memRead16 (a : Word) (s : State) : Runs Prod.snd s (memRead16 a s) :=
  (runs_busRead a s).bind fun _ _ => (runs_busRead _ _).bind fun _ _ => Runs.ok (SameBus.refl _)

theorem runs_memReadW (w : Width) (a : Word) (s : State) : Runs Prod.snd s (memReadW w a s) := by
  cases w with
  | w8 => exact (runs_busRead a s).bind fun _ _ => Runs.ok (SameBus.refl _)
  | w16 => exact runs_memRead16 a s

theorem runs_memWriteW (w : Width) (a v : Word) (s : State) : Runs id s (memWriteW w a v s) := by
  cases w with
  | w8 => exact runs_busWrite a _ s
  | w16 => exact (runs_busWrite a _ s).bind fun _ _ => runs_busWrite _ _ _

theorem runs_zpPtr (z : Byte) (s : State) : Runs Prod.snd s (zpPtr z s) :=
  (runs_busRead _ s).bind fun _ _ => (runs_busRead _ _).bind fun _ _ => Runs.ok (SameBus.refl _)

theorem runs_windowPtr (addr : Byte → Word) (o : Byte) (s : State) : Runs Prod.snd s (windowPtr addr o s) :=
  (runs_busRead _ s).bind fun _ _ => (runs_busRead _ _).bind fun _ _ => Runs.ok (SameBus.refl _)

theorem runs_effAddr (m : MemMode) (s : State) : Runs Prod.snd s (effAddr m s) := by
  cases m with
  | izpX z => exact runs_zpPtr _ s
  | izp z => exact runs_zpPtr _ s
  | izpY z => exact (runs_zpPtr _ s).bind fun _ _ => Runs.ok (SameBus.refl _)
  | isrY o => exact (runs_windowPtr _ _ s).bind fun _ _ => Runs.ok (SameBus.refl _)
  | irrY o => exact (runs_windowPtr _ _ s).bind fun _ _ => Runs.ok (SameBus.refl _)
  | _ => exact Runs.ok (SameBus.refl _)

theorem runs_readSrc (w : Width) (o : Src) (s : State) : Runs Prod.snd s (readSrc w o s) := by
  cases o with
  | imm v => exact Runs.ok (SameBus.refl _)
  | mem m => exact (runs_effAddr m s).bind fun _ _ => runs_memReadW w _ _

theorem runs_storeMem (w : Width) (m : MemMode) (v : Word) (s : State) : Runs id s (storeMem w m v s) :=
  (runs_effAddr m s).bind fun _ _ => runs_memWriteW w _ _ _

theorem runs_modifyLoc (w : Width) (o : Loc) (f : Word → Word) (s : State) : Runs Prod.snd s (modifyLoc w o f s) := by
  cases o with
  | acc => exact Runs.ok (by cases w <;> exact ⟨rfl, rfl⟩)
  | mem m =>
    exact (runs_effAddr m s).bind fun _ _ => (runs_memReadW w _ _).bind fun _ _ =>
      (runs_memWriteW w _ _ _).bind fun _ _ => Runs.ok (SameBus.refl _)

/-! ## Stacks and exceptions -/

theorem runs_push8 (v : Byte) (s : State) : Runs id s (push8 v s) :=
  (runs_busWrite _ v s).bind fun _ _ => Runs.ok ⟨rfl, rfl⟩

theorem runs_pop8 (s : State) : Runs Prod.snd s (pop8 s) :=
  Runs.of_sameBus (t := { s with sp := s.sp + 1 }) ⟨rfl, rfl⟩ (runs_busRead _ _)

theorem runs_push16 (v : Word) (s : State) : Runs id s (push16 v s) :=
  (runs_push8 _ s).bind fun _ _ => runs_push8 _ _

theorem runs_pop16 (s : State) : Runs Prod.snd s (pop16 s) :=
  (runs_pop8 s).bind fun _ _ => (runs_pop8 _).bind fun _ _ => Runs.ok (SameBus.refl _)

theorem runs_pushW (w : Width) (v : Word) (s : State) : Runs id s (pushW w v s) := by
  cases w
  · exact runs_push8 _ s
  · exact runs_push16 _ s

theorem runs_popW (w : Width) (s : State) : Runs Prod.snd s (popW w s) := by
  cases w
  · exact (runs_pop8 s).bind fun _ _ => Runs.ok (SameBus.refl _)
  · exact runs_pop16 s

theorem runs_rpush8 (v : Byte) (s : State) : Runs id s (rpush8 v s) :=
  (runs_busWrite _ v s).bind fun _ _ => Runs.ok ⟨rfl, rfl⟩

theorem runs_rpop8 (s : State) : Runs Prod.snd s (rpop8 s) :=
  Runs.of_sameBus (t := { s with r := s.r + 1 }) ⟨rfl, rfl⟩ (runs_busRead _ _)

theorem runs_rpush16 (v : Word) (s : State) : Runs id s (rpush16 v s) :=
  (runs_rpush8 _ s).bind fun _ _ => runs_rpush8 _ _

theorem runs_rpop16 (s : State) : Runs Prod.snd s (rpop16 s) :=
  (runs_rpop8 s).bind fun _ _ => (runs_rpop8 _).bind fun _ _ => Runs.ok (SameBus.refl _)

theorem runs_rpushW (w : Width) (v : Word) (s : State) : Runs id s (rpushW w v s) := by
  cases w
  · exact runs_rpush8 _ s
  · exact runs_rpush16 _ s

theorem runs_rpopW (w : Width) (s : State) : Runs Prod.snd s (rpopW w s) := by
  cases w
  · exact (runs_rpop8 s).bind fun _ _ => Runs.ok (SameBus.refl _)
  · exact runs_rpop16 s

theorem sameBus_setAcc (s : State) (w : Width) (v : Word) : SameBus s (s.setAcc w v) := by cases w <;> exact ⟨rfl, rfl⟩

theorem sameBus_setP (s : State) (p : Byte) : SameBus s (s.setP p) := by rw [setP_withStatus]; exact ⟨rfl, rfl⟩

theorem runs_takeInterrupt (brk : Bool) (returnAddress vector : Word) (s : State) :
    Runs id s (takeInterrupt brk returnAddress vector s) := by
  refine Runs.bind (Runs.of_sameBus (t := { s with fB := brk }) ⟨rfl, rfl⟩ (runs_push16 _ _)) fun u _ => ?_
  exact (runs_push8 u.getP u).bind fun v _ => Runs.ok ⟨rfl, rfl⟩

theorem runs_returnFromInterrupt (s : State) : Runs id s (returnFromInterrupt s) := by
  refine Runs.bind (runs_pop8 s) fun v _ => ?_
  refine Runs.bind (Runs.of_sameBus (sameBus_setP v.2 v.1) (runs_pop16 _)) fun _ _ => ?_
  exact Runs.ok ⟨rfl, rfl⟩

/-! ## The machine step -/

theorem runs_interruptCheck (s : State) : Runs id s (interruptCheck s) := by
  unfold interruptCheck
  split
  · exact Runs.of_sameBus (t := { s with nmi := false }) ⟨rfl, rfl⟩ (runs_takeInterrupt ..)
  · split
    · exact Runs.of_sameBus (t := { s with irq := false }) ⟨rfl, rfl⟩ (runs_takeInterrupt ..)
    · exact Runs.ok (SameBus.refl _)

theorem runs_fetchByte (s : State) : Runs Prod.snd s (fetchByte s) :=
  (runs_busRead _ s).bind fun _ _ => Runs.ok ⟨rfl, rfl⟩

theorem runs_fetch (s : State) : Runs Prod.snd s (fetch s) := by
  refine Runs.bind (runs_fetchByte s) ?_
  rintro ⟨op, t⟩ -
  simp only
  split
  · exact Runs.bind (runs_fetchByte t) fun _ _ => Runs.ok (SameBus.refl _)
  · exact Runs.bind (runs_fetchByte t) fun v _ => Runs.bind (runs_fetchByte v.2) fun _ _ => Runs.ok (SameBus.refl _)
  · exact Runs.ok (SameBus.refl _)

theorem runs_beginStep (s : State) : Runs Prod.snd s (beginStep s) := by
  refine Runs.bind (Runs.of_sameBus (t := { s with trap := false }) ⟨rfl, rfl⟩ (runs_interruptCheck _)) fun u _ => ?_
  exact runs_fetch u

end Sys2Proof.Machine
end

