-- ==== Sys2Proof/Machine/Assembly.lean ====
section
/-! DEFINITION. Assembler text: a mnemonic, then the operand as 00_scope.md R20 spells it (30_encoding.md R143). No step
uses it. -/

namespace Sys2Proof

/-- A digit of a hexadecimal literal. -/
def hexDigit (n : Nat) : Char := Char.ofNat (if n < 10 then 48 + n else 55 + n)

/-- A byte as a hexadecimal literal, `$10`. -/
def hexByte (b : Byte) : String := String.ofList ['$', hexDigit (b.toNat / 16), hexDigit (b.toNat % 16)]

/-- A word as a hexadecimal literal, `$0200`. -/
def hexWord (w : Word) : String :=
  String.ofList ['$', hexDigit (w.toNat / 4096), hexDigit (w.toNat / 256 % 16), hexDigit (w.toNat / 16 % 16), hexDigit (w.toNat % 16)]

/-- A variable-width immediate: the literal has as many digits as the width. -/
def hexImm (w : Width) (v : Word) : String :=
  match w with
  | .w8 => "#" ++ hexByte (loByte v)
  | .w16 => "#" ++ hexWord v

/-- A memory operand in the spelling of 00_scope.md R20. -/
def MemMode.text : MemMode → String
  | .zp z => hexByte z
  | .zpX z => hexByte z ++ ",X"
  | .zpY z => hexByte z ++ ",Y"
  | .abs w => hexWord w
  | .absX w => hexWord w ++ ",X"
  | .absY w => hexWord w ++ ",Y"
  | .izpX z => "(" ++ hexByte z ++ ",X)"
  | .izpY z => "(" ++ hexByte z ++ "),Y"
  | .izp z => "(" ++ hexByte z ++ ")"
  | .sr o => hexByte o ++ ",S"
  | .isrY o => "(" ++ hexByte o ++ ",S),Y"
  | .rr o => hexByte o ++ ",R"
  | .irrY o => "(" ++ hexByte o ++ ",R),Y"

/-- An operand in the spelling of 00_scope.md R20, for an instruction that ends before `pc`: a relative operand is written as
the address it stands for. -/
def Operand.text (wM wX : Width) (pc : Word) : Operand → String
  | .implied => ""
  | .acc => "A"
  | .immM v => hexImm wM v
  | .immX v => hexImm wX v
  | .imm8 k => "#" ++ hexByte k
  | .mem m => m.text
  | .iabs w => "(" ++ hexWord w ++ ")"
  | .iabsX w => "(" ++ hexWord w ++ ",X)"
  | .rel b => hexWord (pc + sext b)
  | .rel16 w => hexWord (pc + w)

/-- The mnemonic of an operation (30_encoding.md R135). -/
def Op.mnemonic : Op → String
  | .brk => "BRK"
  | .ora => "ORA"
  | .nxt => "NXT"
  | .tsb => "TSB"
  | .asl => "ASL"
  | .php => "PHP"
  | .rhi => "RHI"
  | .mul => "MUL"
  | .bpl => "BPL"
  | .trb => "TRB"
  | .clc => "CLC"
  | .inc => "INC"
  | .rhx => "RHX"
  | .jsr => "JSR"
  | .and => "AND"
  | .ent => "ENT"
  | .bit => "BIT"
  | .rol => "ROL"
  | .plp => "PLP"
  | .rli => "RLI"
  | .bmi => "BMI"
  | .sec => "SEC"
  | .dec => "DEC"
  | .rlx => "RLX"
  | .rti => "RTI"
  | .eor => "EOR"
  | .nxa => "NXA"
  | .rea => "REA"
  | .lsr => "LSR"
  | .pha => "PHA"
  | .rha => "RHA"
  | .jmp => "JMP"
  | .div => "DIV"
  | .bvc => "BVC"
  | .rei => "REI"
  | .cli => "CLI"
  | .phy => "PHY"
  | .rhy => "RHY"
  | .txi => "TXI"
  | .rts => "RTS"
  | .adc => "ADC"
  | .per => "PER"
  | .stz => "STZ"
  | .ror => "ROR"
  | .pla => "PLA"
  | .rla => "RLA"
  | .bvs => "BVS"
  | .sei => "SEI"
  | .ply => "PLY"
  | .rly => "RLY"
  | .bra => "BRA"
  | .sta => "STA"
  | .rer => "RER"
  | .sty => "STY"
  | .stx => "STX"
  | .dey => "DEY"
  | .txa => "TXA"
  | .txr => "TXR"
  | .zea => "ZEA"
  | .bcc => "BCC"
  | .tya => "TYA"
  | .txs => "TXS"
  | .txy => "TXY"
  | .sea => "SEA"
  | .ldy => "LDY"
  | .lda => "LDA"
  | .ldx => "LDX"
  | .tay => "TAY"
  | .tax => "TAX"
  | .trx => "TRX"
  | .tda => "TDA"
  | .bcs => "BCS"
  | .clv => "CLV"
  | .tsx => "TSX"
  | .tyx => "TYX"
  | .tad => "TAD"
  | .cpy => "CPY"
  | .cmp => "CMP"
  | .rep => "REP"
  | .iny => "INY"
  | .dex => "DEX"
  | .wai => "WAI"
  | .pld => "PLD"
  | .bne => "BNE"
  | .pei => "PEI"
  | .cld => "CLD"
  | .phx => "PHX"
  | .stp => "STP"
  | .tix => "TIX"
  | .phd => "PHD"
  | .cpx => "CPX"
  | .sbc => "SBC"
  | .sep => "SEP"
  | .inx => "INX"
  | .nop => "NOP"
  | .xba => "XBA"
  | .mmu => "MMU"
  | .beq => "BEQ"
  | .pea => "PEA"
  | .sed => "SED"
  | .plx => "PLX"
  | .xce => "XCE"
  | .illegal => "ILLEGAL"

/-- The assembler text of an instruction at the address `p`, at the widths it is assembled for. -/
def Instr.text (wM wX : Width) (p : Word) (i : Instr) : String :=
  match i.operand with
  | .implied => i.op.mnemonic
  | o => i.op.mnemonic ++ " " ++ o.text wM wX (p + BitVec.ofNat 16 (i.length wM wX))

end Sys2Proof
end

