-- ==== Sys2Proof/Tests/Slice0.lean ====
section
/-! SUPPORT. Tests of one step each, with their expected results from the rules' examples and from 95_test_vectors.md (the
vector is named), and for each statement with hypotheses a concrete case that meets them. The decoding of every
constructor's own word is Laws/PerInstr.lean. -/

namespace Sys2Proof.Tests

open Sys2Proof.Machine

/-! ## Well-formed terms and decoding -/

theorem test_wf_refuses_wide_immM : ∀ i ∈ [Instr.oraImmM 0x100, .andImmM 0x100, .eorImmM 0x100, .adcImmM 0x100,
    .bitImmM 0x100, .ldaImmM 0x100, .cmpImmM 0x100, .sbcImmM 0x100], i.wf .w8 .w16 = false ∧ i.wf .w16 .w8 = true := by
  decide

theorem test_wf_refuses_wide_immX : ∀ i ∈ [Instr.ldyImmX 0x100, .ldxImmX 0x100, .cpyImmX 0x100, .cpxImmX 0x100],
    i.wf .w16 .w8 = false ∧ i.wf .w8 .w16 = true := by decide

/-- A truncated instruction is rejected by name. -/
theorem test_decode_truncated : decode .w8 .w8 [] = .error .noBytes ∧
    decode .w16 .w8 [0xA9, 0x34] = .error (.truncated 0xA9) ∧ decode .w8 .w8 [0x4C, 0x00] = .error (.truncated 0x4C) := ⟨rfl, rfl, rfl⟩

/-- Words written out from the rules' encodings, one for each family (R211, R240, R273, R321, R361, R393, R411, R430, R452). -/
theorem test_decode_families :
    decode .w16 .w16 [0x29, 0xFF, 0xF0] = .ok (.andImmM 0xF0FF, []) ∧
    decode .w8 .w8 [0x0A, 0x01] = .ok (.aslAcc, [0x01]) ∧
    decode .w8 .w8 [0x8D, 0x00, 0x02] = .ok (.staAbs 0x0200, []) ∧
    decode .w8 .w8 [0xFC, 0x00, 0x30] = .ok (.jsrIabsX 0x3000, []) ∧
    decode .w8 .w8 [0xF4, 0x34, 0x12] = .ok (.pea 0x1234, []) ∧
    decode .w8 .w8 [0x82, 0x00, 0x10] = .ok (.rer 0x1000, []) ∧
    decode .w16 .w16 [0xE2, 0x30] = .ok (.sep 0x30, []) ∧
    decode .w8 .w8 [0x2F, 0x30, 0x03] = .ok (.mulAbs 0x0330, []) ∧
    decode .w16 .w16 [0xEF, 0x05] = .ok (.mmu 0x05, []) := ⟨rfl, rfl, rfl, rfl, rfl, rfl, rfl, rfl, rfl⟩

theorem test_decodeTableWord : decodeTableWord 24 0x12344C = some (.jmpAbs 0x1234) ∧
    decodeTableWord 16 0x34A9 = some (.ldaImmM 0x34) ∧ decodeTableWord 8 0xFF = some .illegal := ⟨rfl, rfl, rfl⟩

/-- The branch of program P1 and the spellings of R143. -/
theorem test_text : Instr.text .w8 .w8 0x040B (.bne 0xF8) = "BNE $0405" ∧ Instr.text .w8 .w8 0x0400 (.ldaImmM 0x12) = "LDA #$12" ∧
    Instr.text .w8 .w8 0x0400 (.staAbsX 0x0200) = "STA $0200,X" := by decide

/-! ## States and results -/

/-- The premises of 95_test_vectors.md part 0. -/
def emulation : State := { State.reset with rbWindow := 0x8000 }

/-- The same in native mode with 16-bit registers. -/
def native : State := { emulation with fE := false, fM := false, fX := false }

/-- A part of the state after an instruction. -/
def after {β : Type} (i : Instr) (s : State) (f : State → β) : Option β :=
  match exec i s with
  | .next t => some (f t)
  | _ => none

/-- A part of the state after a machine step. -/
def afterStep {β : Type} (s : State) (f : State → β) : Option β :=
  match step s with
  | .next t => some (f t)
  | _ => none

/-- The flags C, Z, N and V. -/
def flags (s : State) : Bool × Bool × Bool × Bool := (s.fC, s.fZ, s.fN, s.fV)

/-- V-ORA-1. -/
theorem test_ora : after (.oraZp 0x10) { native with al := 0x01, mem := [(0x11, 0x80)] } (fun t => (t.al, t.ah, t.fN)) =
    some (0x01, 0x80, true) := by decide

/-- V-AND-1. -/
theorem test_and : after (.andAbs 0x0300) { emulation with al := 0xF0, ah := 0x77, mem := [(0x300, 0x0F)] }
    (fun t => (t.al, t.ah, t.fZ)) = some (0x00, 0x77, true) := by decide

/-- V-EOR-1. -/
theorem test_eor : after (.eorImmM 0xFF) { emulation with al := 0x0F } (fun t => (t.al, t.fN)) = some (0xF0, true) := by decide

/-- V-ADC-2, V-ADC-4, V-ADC-6. -/
theorem test_adc_binary :
    after (.adcImmM 0x01) { emulation with al := 0x7F } (fun t => (t.al, flags t)) =
      some (0x80, false, false, true, true) ∧
    after (.adcImmM 0x8000) { native with ah := 0x80 } (fun t => (t.al, t.ah, flags t)) =
      some (0, 0, true, true, false, true) ∧
    after (.adcImmM 0x01) { emulation with al := 0xFF, ah := 0x12 } (fun t => (t.ah, flags t)) =
      some (0x12, true, true, false, false) := by
  and_intros <;> decide

/-- V-ADC-D1, V-ADC-D5, V-ADC-D6. -/
theorem test_adc_decimal :
    after (.adcImmM 0x01) { emulation with al := 0x99, fD := true } (fun t => (t.al, flags t)) =
      some (0, true, true, false, false) ∧
    after (.adcImmM 0x1234) { native with al := 0x99, ah := 0x01, fC := true, fD := true } (fun t => (t.al, t.ah, t.fC)) =
      some (0x34, 0x14, false) ∧
    after (.adcImmM 0x01) { emulation with al := 0x0F, fD := true } (fun t => t.al) = some 0x16 := by
  and_intros <;> decide

/-- V-SBC-2, V-SBC-3. -/
theorem test_sbc_binary :
    after (.sbcImmM 0x01) { emulation with al := 0x80, fC := true } (fun t => (t.al, flags t)) =
      some (0x7F, true, false, false, true) ∧
    after (.sbcImmM 0x50) { emulation with al := 0x50 } (fun t => (t.al, flags t)) =
      some (0xFF, false, false, true, false) := by
  and_intros <;> decide

/-- V-SBC-D1, V-SBC-D4. -/
theorem test_sbc_decimal :
    after (.sbcImmM 0x01) { emulation with fC := true, fD := true } (fun t => (t.al, flags t)) =
      some (0x99, false, false, true, false) ∧
    after (.sbcImmM 0x0001) { native with ah := 0x10, fC := true, fD := true } (fun t => (t.al, t.ah, t.fC)) =
      some (0x99, 0x09, true) := by
  and_intros <;> decide

/-- V-BIT-1, V-BIT-2. -/
theorem test_bit :
    after (.bitImmM 0x4000) { native with ah := 0x40, fN := true } flags = some (false, false, true, false) ∧
    after (.bitAbs 0x0300) { native with al := 0x01, mem := [(0x301, 0x40)] } flags =
      some (false, true, false, true) := by
  and_intros <;> decide

/-- V-TSB-1, V-TRB-1. -/
theorem test_tsb_trb :
    after (.tsbAbs 0x0300) { native with al := 0x01, ah := 0x80 } (fun t => (t.mem, t.fZ)) =
      some ([(0x300, 0x01), (0x301, 0x80)], true) ∧
    after (.trbAbs 0x0300) { emulation with al := 0x0F, mem := [(0x300, 0x3C)] } (fun t => (t.mem, t.fZ)) =
      some ([(0x300, 0x30)], false) := by
  and_intros <;> decide

/-- V-CMP-3, V-CPX-1, V-CPY-1. -/
theorem test_compares :
    after (.cmpImmM 0x8000) { native with al := 0xFF, ah := 0x7F } flags = some (false, false, true, false) ∧
    after (.cpxImmX 0xFF) emulation flags = some (false, false, false, false) ∧
    after (.cpyImmX 0x0100) { native with y := 0x0100 } flags = some (true, true, false, false) := by
  and_intros <;> decide

/-- V-ASL-1, V-LSR-2, V-ROL-2, V-ROR-2. -/
theorem test_shifts :
    after .aslAcc { native with ah := 0x80 } (fun t => (t.ah, t.fC, t.fZ)) = some (0, true, true) ∧
    after (.lsrAbsX 0x0300) { native with x := 1, mem := [(0x302, 0x80)] } (fun t => (t.mem, t.fC)) =
      some ([(0x302, 0x40)], false) ∧
    after .rolAcc { native with ah := 0x80, fC := true } (fun t => (t.al, t.ah, t.fC)) = some (0x01, 0, true) ∧
    after (.rorZp 0x10) { emulation with fC := true } (fun t => (t.mem, t.fC, t.fN)) =
      some ([(0x10, 0x80)], false, true) := by
  and_intros <;> decide

/-- V-INC-1, V-INC-2, V-DEC-1, V-DEC-2. -/
theorem test_inc_dec :
    after (.incAbs 0x0300) { native with mem := [(0x300, 0xFF), (0x301, 0xFF)] } (fun t => (t.mem, t.fZ)) = some ([], true) ∧
    after .incAcc { native with al := 0xFF } (fun t => (t.al, t.ah)) = some (0x00, 0x01) ∧
    after .decAcc { emulation with fC := true, fV := true } (fun t => (t.al, t.ah, flags t)) =
      some (0xFF, 0, true, false, true, true) ∧
    after (.decZpX 0xFF) { emulation with x := 2, mem := [(0x01, 0x01)] } (fun t => (t.mem, t.fZ)) = some ([], true) := by
  and_intros <;> decide

/-- V-INX-1, V-DEY-1, and the examples of R247 and R248. -/
theorem test_index_counts :
    after .inx { native with x := 0xFFFF } (fun t => (t.x, t.fZ)) = some (0, true) ∧
    after .dey emulation (fun t => (t.y, t.fN)) = some (0x00FF, true) ∧
    after .iny { native with y := 0x7FFF } (fun t => (t.y, t.fN)) = some (0x8000, true) ∧
    after .dex emulation (fun t => (t.x, t.fN)) = some (0x00FF, true) := by
  and_intros <;> decide

/-- V-LD-3 to V-LD-6. -/
theorem test_lda_pointers :
    after (.ldaIzpX 0xFE) { emulation with x := 1, mem := [(0x00, 0x03), (0x100, 0x05), (0x300, 0x77)] } (·.al) = some 0x77 ∧
    after (.ldaIzpY 0x10) { emulation with y := 0x10, mem := [(0x10, 0xF8), (0x11, 0x03), (0x408, 0x5A)] } (·.al) =
      some 0x5A ∧
    after (.ldaIzp 0xFF) { emulation with mem := [(0x00, 0x03), (0x300, 0x66)] } (·.al) = some 0x66 ∧
    after (.ldaAbsX 0xFFFF) { emulation with x := 2, mem := [(0x01, 0x42)] } (·.al) = some 0x42 := by
  and_intros <;> decide

/-- V-LD-8, V-LD-9, V-LD-10, V-LD-11. -/
theorem test_lda_stack_relative :
    after (.ldaSr 0x02) { emulation with mem := [(0x101, 0x3D), (0x201, 0x01)] } (·.al) = some 0x3D ∧
    after (.ldaIsrY 0x01) { emulation with sp := 0xFE, y := 1, mem := [(0x100, 0x03), (0x301, 0x44)] } (·.al) = some 0x44 ∧
    after (.ldaRr 0x01) { emulation with r := 0xFD, mem := [(0x2FE, 0x21)] } (·.al) = some 0x21 ∧
    after (.ldaIrrY 0x01) { emulation with r := 0xFD, y := 2, mem := [(0x2FF, 0x03), (0x302, 0x65)] } (·.al) = some 0x65 := by
  and_intros <;> decide

/-- V-LD-14, V-LD-15, V-LD-16, and the example of R272. -/
theorem test_ldx_ldy :
    after (.ldxImmX 0x1234) native (·.x) = some 0x1234 ∧
    after (.ldxAbsY 0x0300) { emulation with y := 5, mem := [(0x305, 0x80)] } (fun t => (t.x, t.fN)) = some (0x0080, true) ∧
    after (.ldxZpY 0xFF) { emulation with y := 2, mem := [(0x01, 0x07)] } (·.x) = some 0x0007 ∧
    after (.ldyImmX 0) { native with y := 0xFFFF } (fun t => (t.y, t.fZ)) = some (0, true) := by
  and_intros <;> decide

/-- V-ST-1, V-ST-3, V-ST-4, and the example of R275. -/
theorem test_stores :
    after (.stxZp 0xFF) { native with x := 0xABCD } (·.mem) = some [(0xFF, 0xCD), (0x100, 0xAB)] ∧
    after (.staIzpY 0x10) { native with al := 0xEF, ah := 0xBE, y := 1, mem := [(0x10, 0xFF), (0x11, 0x04)] } (·.mem) =
      some [(0x10, 0xFF), (0x11, 0x04), (0x500, 0xEF), (0x501, 0xBE)] ∧
    after (.stzAbsX 0x0300) { native with x := 0x10, mem := [(0x310, 0xAA), (0x311, 0xBB)] } (·.mem) = some [] ∧
    after (.styZp 0x20) { native with y := 0xBEEF } (·.mem) = some [(0x20, 0xEF), (0x21, 0xBE)] := by
  and_intros <;> decide

/-- The examples of R277 to R282 and V-TR-3, V-TR-6. -/
theorem test_transfers :
    after .tax { native with fM := true, al := 0x34, ah := 0x12 } (·.x) = some 0x1234 ∧
    after .tay { native with fM := true, ah := 0x80 } (fun t => (t.y, t.fN)) = some (0x8000, true) ∧
    after .txa { native with fM := true, x := 0x1280, ah := 0x55 } (fun t => (t.al, t.ah, t.fN)) = some (0x80, 0x55, true) ∧
    after .tya { emulation with y := 0xFF } (fun t => (t.al, t.fN)) = some (0xFF, true) ∧
    after .txy { native with x := 0xFFFF } (fun t => (t.y, t.fN)) = some (0xFFFF, true) ∧
    after .tyx { emulation with y := 1 } (fun t => (t.x, t.fN)) = some (1, false) := by
  and_intros <;> decide

/-- V-TR-4, V-TR-5, V-R-4, V-R-5, V-R-6. -/
theorem test_pointer_transfers :
    after .tsx { native with sp := 0x80 } (fun t => (t.x, t.fN)) = some (0x0080, false) ∧
    after .txs { emulation with fN := true } (fun t => (t.sp, t.fN, t.fZ)) = some (0x00, true, false) ∧
    after .trx { native with r := 0xF0 } (fun t => (t.x, t.fN)) = some (0x00F0, false) ∧
    after .txr { native with x := 0x12C0 } (·.r) = some 0xC0 ∧
    after .txi { emulation with x := 0x34, i := 0xFFFF } (·.i) = some 0x0034 ∧
    after .tix { native with i := 0x8000 } (fun t => (t.x, t.fN)) = some (0x8000, true) := by
  and_intros <;> decide

/-- The examples of R285 to R291. -/
theorem test_flag_operations :
    after .clc { emulation with fC := true } (·.fC) = some false ∧ after .sec emulation (·.fC) = some true ∧
    after .cli emulation (·.fI) = some false ∧ after .sei { emulation with fI := false } (·.fI) = some true ∧
    after .cld { emulation with fD := true } (·.fD) = some false ∧ after .sed emulation (·.fD) = some true ∧
    after .clv { emulation with fV := true } (·.fV) = some false := by
  and_intros <;> decide

/-- V-BR-1, V-BR-2, V-BR-3, V-BR-4, V-BR-6; the PC is the byte after the branch. -/
theorem test_branches :
    after (.bne 0x7F) { emulation with pc := 0x402 } (·.pc) = some 0x481 ∧
    after (.bne 0x80) { emulation with pc := 0x402 } (·.pc) = some 0x382 ∧
    after (.beq 0x80) { emulation with pc := 0x402 } (·.pc) = some 0x402 ∧
    after (.bra 0x10) { emulation with pc := 0xFFF2 } (·.pc) = some 0x0002 ∧
    after (.bcc 0x00) { emulation with pc := 0x402 } (·.pc) = some 0x402 ∧
    after (.bpl 0xFD) { emulation with pc := 0x0002 } (·.pc) = some 0xFFFF := by
  and_intros <;> decide

/-- The examples of R312 to R314 and R316. -/
theorem test_branches_other :
    after (.bmi 0x10) { emulation with pc := 0x402 } (·.pc) = some 0x402 ∧
    after (.bvc 0xFE) { emulation with pc := 0x402 } (·.pc) = some 0x400 ∧
    after (.bvs 0x80) { emulation with pc := 0x402, fV := true } (·.pc) = some 0x382 ∧
    after (.bcs 0x00) { emulation with pc := 0x402, fC := true } (·.pc) = some 0x402 := by
  and_intros <;> decide

/-- V-JMP-1, V-JMP-3, V-JMP-4. -/
theorem test_jmp :
    after (.jmpAbs 0x2000) emulation (·.pc) = some 0x2000 ∧
    after (.jmpIabsX 0xFFFF) { emulation with x := 1, mem := [(0x01, 0x50)] } (·.pc) = some 0x5000 ∧
    after (.jmpIabs 0xFFFF) { emulation with mem := [(0x00, 0x60)] } (·.pc) = some 0x6000 := by
  and_intros <;> decide

/-- V-JSR-1, V-JSR-2, V-RTS-1. -/
theorem test_jsr_rts :
    after (.jsrIabsX 0x3000) { emulation with pc := 0x403, x := 2, mem := [(0x3003, 0x50)] } (fun t => (t.pc, t.sp, t.mem)) =
      some (0x5000, 0xFD, [(0x1FE, 0x02), (0x1FF, 0x04), (0x3003, 0x50)]) ∧
    after (.jsrAbs 0x5000) { emulation with pc := 0x403, sp := 0 } (fun t => (t.pc, t.sp, t.mem)) =
      some (0x5000, 0xFE, [(0x100, 0x04), (0x1FF, 0x02)]) ∧
    after .rts { emulation with sp := 0xFD, mem := [(0x1FE, 0xFF), (0x1FF, 0xFF)] } (fun t => (t.pc, t.sp)) =
      some (0x0000, 0xFF) := by
  and_intros <;> decide

/-- V-RTI-1, V-RTI-2. -/
theorem test_rti :
    after .rti { emulation with sp := 0xFC, mem := [(0x1FD, 0x30), (0x1FE, 0x34), (0x1FF, 0x12)] }
      (fun t => (t.pc, t.sp, t.fB, t.fM, t.fX)) = some (0x1234, 0xFF, true, true, true) ∧
    after .rti { native with sp := 0xFC, x := 0x1234, mem := [(0x1FD, 0x10), (0x1FE, 0x34), (0x1FF, 0x12)] }
      (fun t => (t.pc, t.x, t.fM, t.fX, t.fI)) = some (0x1234, 0x0034, false, true, false) := by
  and_intros <;> decide

/-- V-BRK-1. -/
theorem test_brk : after .brk { native with pc := 0x401, fC := true, fD := true, brkv := 0x3000 }
    (fun t => (t.pc, t.sp, t.mem, t.fI, t.fD, t.fB)) =
    some (0x3000, 0xFC, [(0x1FD, 0x0D), (0x1FE, 0x02), (0x1FF, 0x04)], true, true, true) := rfl

/-- V-STW16, V-PHP-1, V-PHD-1, V-PEA-1, V-PEI-1, V-PER-1. -/
theorem test_pushes :
    after .pha { native with al := 0xEF, ah := 0xBE, sp := 0 } (fun t => (t.sp, t.mem)) =
      some (0xFE, [(0x100, 0xBE), (0x1FF, 0xEF)]) ∧
    after .php { native with fM := true, fB := true, fN := true } (·.mem) = some [(0x1FF, 0xA4)] ∧
    after .phd { emulation with d := 0x1234 } (fun t => (t.sp, t.mem)) = some (0xFE, [(0x1FF, 0x34)]) ∧
    after (.pea 0x1234) { emulation with sp := 0 } (fun t => (t.sp, t.mem)) = some (0xFE, [(0x100, 0x12), (0x1FF, 0x34)]) ∧
    after (.pei 0xFF) { emulation with mem := [(0x00, 0x56), (0xFF, 0x78)] } (·.mem) =
      some [(0x00, 0x56), (0xFF, 0x78), (0x1FE, 0x78), (0x1FF, 0x56)] ∧
    after (.per 0xFFFD) { emulation with pc := 0x403 } (·.mem) = some [(0x1FF, 0x04)] := by
  and_intros <;> decide

/-- The pushes and pulls of X and Y, as R353 to R356 give them. -/
theorem test_index_stack :
    after .phx { emulation with x := 0x42 } (fun t => (t.sp, t.mem)) = some (0xFE, [(0x1FF, 0x42)]) ∧
    after .phy { native with y := 0x1234 } (fun t => (t.sp, t.mem)) = some (0xFD, [(0x1FE, 0x34), (0x1FF, 0x12)]) ∧
    after .plx { native with sp := 0xFD, mem := [(0x1FE, 0x34), (0x1FF, 0x92)] } (fun t => (t.x, t.sp, t.fN)) =
      some (0x9234, 0xFF, true) ∧
    after .ply { emulation with sp := 0xFE } (fun t => (t.y, t.sp, t.fZ)) = some (0, 0xFF, true) := by
  and_intros <;> decide

/-- V-PLP-1, V-PLP-2, V-PLD-1, and the pull of V-STW8. -/
theorem test_pulls :
    after .plp { emulation with sp := 0xFE, mem := [(0x1FF, 0xFF)] } (fun t => (t.fB, t.fD, t.fI, flags t)) =
      some (true, true, true, true, true, true, true) ∧
    after .plp { native with fX := true, sp := 0xFE } (fun t => (t.fM, t.fX, t.fI)) = some (false, false, false) ∧
    after .pld { native with d := 1, sp := 0xFD } (fun t => (t.d, t.fZ, t.sp)) = some (0, true, 0xFF) ∧
    after .pla { emulation with sp := 0xFF, ah := 0x12, mem := [(0x100, 0x77)] } (fun t => (t.al, t.ah, t.sp)) =
      some (0x77, 0x12, 0x00) := by
  and_intros <;> rfl

/-- V-R-1, V-R-3, V-R-9, V-R-10. -/
theorem test_auxiliary_stack :
    after .rha { native with al := 0x34, ah := 0x12, r := 0 } (fun t => (t.r, t.mem, t.sp)) =
      some (0xFE, [(0x200, 0x12), (0x2FF, 0x34)], 0xFF) ∧
    after .rla { native with r := 0xFE, mem := [(0x200, 0x12), (0x2FF, 0x34)] } (fun t => (t.al, t.ah, t.r)) =
      some (0x34, 0x12, 0x00) ∧
    after .rli { emulation with r := 0xFD, mem := [(0x2FF, 0x80)] } (fun t => (t.i, t.fN)) = some (0x8000, true) ∧
    after (.ent 0x0500) { emulation with pc := 0x403, i := 0x1234, r := 0 } (fun t => (t.i, t.pc, t.r, t.mem)) =
      some (0x0403, 0x0500, 0xFE, [(0x200, 0x12), (0x2FF, 0x34)]) ∧
    after (.rer 0x1000) { emulation with pc := 0x403 } (fun t => (t.r, t.mem)) =
      some (0xFD, [(0x2FE, 0x03), (0x2FF, 0x14)]) := by
  and_intros <;> decide

/-- The other operations on the auxiliary stack, as R383 to R387, R396 and R397 give them. -/
theorem test_auxiliary_stack_other :
    after .rhx { emulation with x := 0x42 } (fun t => (t.r, t.mem)) = some (0xFE, [(0x2FF, 0x42)]) ∧
    after .rhy { native with y := 0x1234 } (·.mem) = some [(0x2FE, 0x34), (0x2FF, 0x12)] ∧
    after .rhi { emulation with i := 0x1234 } (·.mem) = some [(0x2FE, 0x34), (0x2FF, 0x12)] ∧
    after .rlx { emulation with r := 0xFE, mem := [(0x2FF, 0x80)] } (fun t => (t.x, t.fN)) = some (0x80, true) ∧
    after .rly { native with r := 0xFD, mem := [(0x2FF, 0x12)] } (·.y) = some 0x1200 ∧
    after (.rea 0x1234) emulation (·.mem) = some [(0x2FE, 0x34), (0x2FF, 0x12)] ∧
    after (.rei 0x10) { emulation with mem := [(0x10, 0x78), (0x11, 0x56)] } (·.mem) =
      some [(0x10, 0x78), (0x11, 0x56), (0x2FE, 0x78), (0x2FF, 0x56)] := by
  and_intros <;> decide

/-- V-R-7, V-R-8. -/
theorem test_threading :
    after .nxt { emulation with i := 0xFFFF, mem := [(0x00, 0x70)] } (fun t => (t.pc, t.i)) = some (0x7000, 0x0001) ∧
    after .nxa { native with i := 0x0300, mem := [(0x300, 0x34), (0x301, 0x12)] } (fun t => (t.al, t.ah, t.i)) =
      some (0x34, 0x12, 0x0302) := by
  and_intros <;> decide

/-- V-M-2, V-M-3, V-M-7. -/
theorem test_masks :
    after (.rep 0xFF) { emulation with fN := true, fC := true, fB := true } (fun t => (t.fM, t.fX, t.fI, flags t)) =
      some (true, true, false, false, false, false, false) ∧
    after (.sep 0x30) { native with x := 0xABCD, y := 0x1234, ah := 0x56 } (fun t => (t.x, t.y, t.ah, t.fM)) =
      some (0x00CD, 0x0034, 0x56, true) ∧
    after .xba { native with al := 0xFF } (fun t => (t.al, t.ah, t.fZ, t.fN)) = some (0x00, 0xFF, true, false) := by
  and_intros <;> rfl

/-- V-M-4, V-M-5. -/
theorem test_xce :
    after .xce { native with fC := true, x := 0x1234, y := 0xFFFF, ah := 0xAB }
      (fun t => (t.fE, t.fC, t.x, t.y, t.ah, t.fM)) = some (true, false, 0x0034, 0x00FF, 0xAB, true) ∧
    after .xce emulation (fun t => (t.fE, t.fC, t.fM, t.fX)) = some (false, true, true, true) := by
  and_intros <;> decide

/-- V-MD-1, V-MD-3. -/
theorem test_mul :
    after (.mulAbs 0x0300) { emulation with al := 0xFF, ah := 0xFF, mem := [(0x300, 0xFF), (0x301, 0xFF)] }
      (fun t => (t.al, t.ah, t.d, t.fN)) = some (0x01, 0x00, 0xFFFE, true) ∧
    after (.mulAbs 0x0300) { emulation with al := 0xFE, ah := 0xFF, fC := true, mem := [(0x300, 0x03)] }
      (fun t => (t.al, t.ah, t.d, t.fN)) = some (0xFA, 0xFF, 0xFFFF, true) := by
  and_intros <;> decide

/-- V-MD-5, V-MD-6, V-MD-7, V-MD-9. -/
theorem test_div :
    after (.divAbs 0x0300) { emulation with al := 0x34, d := 0x5678 } (fun t => (t.al, t.d, t.fV, t.fZ)) =
      some (0, 0, true, true) ∧
    after (.divAbs 0x0300) { emulation with al := 0xF9, ah := 0xFF, d := 0xFFFF, fC := true, mem := [(0x300, 0x02)] }
      (fun t => (t.al, t.ah, t.d, t.fN)) = some (0xFD, 0xFF, 0xFFFF, true) ∧
    after (.divAbs 0x0300) { emulation with al := 0x07, fC := true, mem := [(0x300, 0xFE), (0x301, 0xFF)] }
      (fun t => (t.al, t.ah, t.d, t.fN)) = some (0xFD, 0xFF, 0x0001, true) ∧
    after (.divAbs 0x0300) { emulation with al := 0xFF, ah := 0xFF, d := 0xFFFF, mem := [(0x300, 0xFF), (0x301, 0xFF)] }
      (fun t => (t.al, t.ah, t.d, t.fV)) = some (0x01, 0x00, 0x0000, false) := by
  and_intros <;> decide

/-- V-MD-10, V-MD-11, V-MD-12, and R432 and R434. -/
theorem test_d_register :
    after .sea { emulation with al := 0x80 } (·.d) = some 0xFFFF ∧ after .sea { native with al := 0x80 } (·.d) = some 0 ∧
    after .tda { emulation with d := 0x1280, ah := 0x55 } (fun t => (t.al, t.ah, t.fN)) = some (0x80, 0x55, true) ∧
    after .zea { emulation with d := 0x1234 } (·.d) = some 0 ∧
    after .tad { native with al := 0x34, ah := 0x12 } (·.d) = some 0x1234 := by
  and_intros <;> decide

/-- V-MMU-3, V-MMU-4, V-MMU-7, V-MMU-8, V-MMU-9. -/
theorem test_mmu :
    after (.mmu 0x80) { native with al := 0xFF, ah := 0xFF, rbSlot := 0x42 } (fun t => (t.al, t.ah)) = some (0x42, 0x00) ∧
    after (.mmu 0x01) { emulation with al := 0x34, ah := 0x12 } (·.rbWindow) = some 0x0034 ∧
    after (.mmu 0x05) { native with ah := 0x05 } (·.brkv) = some 0x0500 ∧
    after (.mmu 0x86) { native with por := 0x0400 } (fun t => (t.al, t.ah)) = some (0x00, 0x04) ∧
    after (.mmu 0x07) { emulation with al := 0x12 } (fun t => (t.al, t.rbSlot, t.rbWindow)) = some (0x12, 0, 0x8000) := by
  and_intros <;> decide

/-- V-ILL-1 and V-ILL-2, in the state before their last step. -/
theorem test_illegal :
    afterStep { emulation with trap := true, mem := [(0x400, 0xFF)] } (fun t => (t.trap, t.pc)) = some (true, 0x401) ∧
    afterStep { emulation with trap := true, mem := [(0x400, 0xEA)] } (fun t => (t.trap, t.pc)) = some (false, 0x401) := by
  and_intros <;> decide

/-- V-STP-1 and I12; V-WAI-1 and I6. -/
theorem test_stp_wai :
    afterStep { emulation with mem := [(0x400, 0xDB)] } (fun t => (t.halted, t.pc, t.steps)) = some (true, 0x401, 1) ∧
    afterStep { emulation with mem := [(0x400, 0xCB)] } (fun t => (t.waiting, t.pc, t.tokens)) = some (true, 0x401, 0) := by
  and_intros <;> decide

/-! ## Interrupts, the machine step, the bus -/

/-- I1, I3. -/
theorem test_interrupts :
    afterStep { emulation with fI := false, fC := true, irq := true, mem := [(0x400, 0xEA), (0x2000, 0xEA)] }
      (fun t => (t.sp, t.pc, t.irq, t.fI, Memory.read t.mem 0x1FF, Memory.read t.mem 0x1FE, Memory.read t.mem 0x1FD)) =
      some (0xFC, 0x2001, false, true, 0x04, 0x00, 0x21) ∧
    afterStep { emulation with fI := false, irq := true, nmi := true, mem := [(0x400, 0xEA), (0x2000, 0xEA)] }
      (fun t => (t.nmi, t.irq, t.pc, Memory.read t.mem 0x1FD)) = some (false, true, 0x2001, 0x20) := by
  and_intros <;> rfl

/-- I5, I6 with its second step. -/
theorem test_wake :
    afterStep { emulation with tokens := 1, mem := [(0x400, 0xCB), (0x401, 0xEA)] }
      (fun t => (t.waiting, t.irq, t.tokens, t.pc)) = some (false, true, 0, 0x401) ∧
    afterStep { emulation with fI := false, waiting := true, tokens := 1, pc := 0x401, mem := [(0x401, 0xEA), (0x2000, 0xEA)] }
      (fun t => (t.waiting, t.irq, t.tokens, t.pc, t.sp)) = some (false, false, 0, 0x2001, 0xFC) := by
  and_intros <;> decide

/-- I7. -/
theorem test_signal_saturates : emulation.signal.signal.signal.tokens = 2 := by decide

/-- B1, with its unmapped addresses, and B4. -/
theorem test_bus_dispatch :
    let s : State := { emulation with devices := [⟨0x2000, 0x20FF, .ram⟩, ⟨0x0000, 0x1FFF, .external 5⟩] }
    s.busTarget 0x1FFF = .external 5 0x1FFF ∧ s.busTarget 0x2000 = .ram ∧ s.busTarget 0x20FF = .ram ∧
    s.busTarget 0x2100 = .unmapped ∧ s.busTarget 0xFFFF = .unmapped ∧
    { emulation with rbWindow := 0xFF80 }.inWindow 0xFFFF = true ∧
    { emulation with rbWindow := 0xFF80 }.inWindow 0x007F = false := by decide

/-- B7: a fetch beyond the devices ends the step. -/
theorem test_fetch_unmapped :
    step { emulation with pc := 0x04FE, devices := [⟨0x0000, 0x04FF, .ram⟩], mem := [(0x4FE, 0xAD)] } =
      .fault (.busUnmapped 0x0500) := rfl

/-- State.reset is what a platform with the model's values launches. -/
theorem test_reset_is_launch : State.reset = Platform.launch
    ⟨Config.params, Config.redBusInit, Config.porInit, Config.brkInit, Config.wakeTokensInit, [⟨0x0000, 0xFFFF, .ram⟩], [],
      Vector.replicate 256 none, false⟩ := rfl

/-! ## Other values of the parameters (00_scope.md R8) -/

/-- Stack windows elsewhere, a BRK that clears fD (R324, R350, R380). -/
theorem test_params_stacks :
    let s : State := { emulation with params := { Config.params with dstackBase := 0x0300, rstackBase := 0x0400, intClearsD := true } }
    after .pha { s with al := 0x77 } (·.mem) = some [(0x3FF, 0x77)] ∧
    after .rha { s with al := 0x77 } (·.mem) = some [(0x4FF, 0x77)] ∧
    after (.ldaSr 0x01) { s with sp := 0xFE, mem := [(0x3FF, 0x21)] } (·.al) = some 0x21 ∧
    after .brk { s with fD := true } (fun t => (t.fD, t.sp)) = some (false, 0xFC) := by
  and_intros <;> decide

/-- MUL is signed with fC = 0 where `P_MULDIV_SIGNED_WHEN_C` is false (V-MD-2 with the carry clear). -/
theorem test_params_muldiv : after (.mulAbs 0x0300) { emulation with
      params := { Config.params with muldivSignedWhenC := false }
      al := 0xFF, ah := 0xFF, mem := [(0x300, 0xFF), (0x301, 0xFF)] } (fun t => (t.al, t.ah, t.d)) = some (0x01, 0x00, 0x0000) := by
  decide

/-- An opcode of the illegal set is removed from its row, and its length is one (92_eei_decisions.md D2); 0xFF stays illegal. -/
theorem test_params_illegal :
    afterStep { emulation with params := { Config.params with illegalOpcodes := [0xA9] }, mem := [(0x400, 0xA9), (0x401, 0x55)] }
      (fun t => (t.trap, t.pc, t.al)) = some (true, 0x401, 0) ∧
    afterStep { emulation with params := { Config.params with illegalOpcodes := [] }, mem := [(0x400, 0xFF)] }
      (fun t => (t.trap, t.pc)) = some (true, 0x401) := by
  and_intros <;> decide

/-- I1 with a vector of its own for IRQ. -/
theorem test_params_vector : afterStep { emulation with
      params := { Config.params with irqVector := .constant 0x3000 }, fI := false, irq := true, mem := [(0x400, 0xEA), (0x3000, 0xEA)] }
      (fun t => (t.pc, t.sp, t.irq)) = some (0x3001, 0xFC, false) := by decide

/-- `run()` before the first reset is refused (93_implementation_defined.md S1). -/
theorem test_run_before_reset (p : Platform) : hostMove .run p.construct = none := rfl

theorem test_reset_memory_wf : Memory.wf State.reset.mem = true := rfl

/-- An instruction stored where the next step fetches is the first to run after reset. -/
theorem test_first_step : afterStep (State.reset.withFetchWord 16 0x50A9) (fun t => (t.al, t.pc, t.steps)) =
    some (0x50, 0x402, 1) := by decide

/-! ## What meets the hypotheses of the statements

`witness_<Name>` gives, for the statement `Obligations.<Name>`, states and operands that meet its hypotheses: a conjunct for
each clause, at a boundary value where the clause has a range. -/

theorem witness_DecodeOfEncodeIsSame : (Instr.adcImmM 0x00FF).opcode ∉ [(0xFF : Byte), 0x68] ∧ (Instr.adcImmM 0x00FF).wf .w8 .w16 = true ∧ (Instr.adcImmM 0xFFFF).wf .w16 .w8 = true ∧
    (Instr.ldxImmX 0xFFFF).wf .w8 .w16 = true := by decide

theorem witness_EveryOpcodeDecodes : (0xFF : Byte) ∈ Config.params.illegalOpcodes := by decide

theorem witness_DecodedBytesAreTheEncoding : decode .w8 .w16 [0xA2, 0x34, 0x12, 0xEA] = .ok (.ldxImmX 0x1234, [0xEA]) := rfl

/-- A machine whose RedBus window ends at its last byte, with a peripheral in every slot and an external device between RAMs. -/
def mapped : State := { emulation with
  rbWindow := 0xFF00, rbSlot := 0xFF, rbEnabled := true, rbBind := Vector.replicate 256 (some 7)
  devices := [⟨0x0010, 0x7FFF, .ram⟩, ⟨0x8000, 0x80FF, .external 5⟩, ⟨0x9000, 0x9FFF, .ram⟩] }

theorem emulation_no_peripheral : emulation.activePeripheral = none := by
  simp [State.activePeripheral, emulation, State.reset]

theorem mapped_peripheral : mapped.activePeripheral = some 7 := by simp [State.activePeripheral, mapped]

theorem witness_BusReadFollowsDispatch :
    (mapped.rbWindow.toNat ≤ (0xFFFF : Word).toNat ∧ (0xFFFF : Word).toNat ≤ mapped.rbWindow.toNat + 255) ∧
    (¬ (mapped.rbWindow.toNat ≤ (0xFEFF : Word).toNat ∧ (0xFEFF : Word).toNat ≤ mapped.rbWindow.toNat + 255)) ∧
    emulation.activePeripheral = none ∧ emulation.rbEnabled = false ∧
    mapped.rbEnabled = true ∧ mapped.activePeripheral = some 7 ∧ distinctStarts mapped.devices = true ∧
    (∀ dv ∈ mapped.devices, (0x000F : Word) < dv.start) ∧
    (∀ a ∈ [(0x80FF : Word), 0x8100], (⟨0x8000, 0x80FF, .external 5⟩ : Device) ∈ mapped.devices ∧ (0x8000 : Word) ≤ a ∧
      ∀ e ∈ mapped.devices, e.start ≤ a → e.start ≤ 0x8000) ∧
    (∀ a ∈ [(0x9000 : Word), 0x9FFF, 0xA000], (⟨0x9000, 0x9FFF, .ram⟩ : Device) ∈ mapped.devices ∧ (0x9000 : Word) ≤ a ∧
      ∀ e ∈ mapped.devices, e.start ≤ a → e.start ≤ 0x9000) :=
  ⟨by decide, by decide, emulation_no_peripheral, rfl, rfl, mapped_peripheral, rfl, by simp [mapped],
    by simp [mapped], by simp [mapped]⟩

theorem witness_BusWriteFollowsDispatch : Memory.wf mapped.mem = true ∧ mapped.busTarget 0x7FFF = .ram ∧
    mapped.busTarget 0x8000 = .external 5 0 ∧ mapped.busTarget 0x8100 = .unmapped ∧ mapped.busTarget 0xFF00 = .redBus :=
  ⟨rfl, rfl, rfl, rfl, rfl⟩

theorem witness_WordInRamIsLittleEndian : Memory.wf native.mem = true ∧ native.busTarget 0xFFFF = .ram ∧
    native.busTarget (0xFFFF + 1) = .ram := ⟨rfl, rfl, rfl⟩

/-- Pointers at 0xFF of page 0 and at the last offsets of the stack windows. -/
def pointers : State := { native with
  x := 0x00F0, sp := 0xF0, r := 0xE0, mem := [(0x00, 0x12), (0xFF, 0x34), (0x100, 0x56), (0x1FF, 0x78), (0x2FE, 0x9A), (0x2FF, 0xBC)] }

theorem witness_PointerAddresses :
    (busRead (BitVec.ofNat 16 (0x00FF % 256)) pointers = .ok (0x34, pointers) ∧
      busRead (BitVec.ofNat 16 ((0x00FF + 1) % 256)) pointers = .ok (0x12, pointers)) ∧
    (0x00FF = (0x0F : Byte).toNat + pointers.x.toNat ∧ 0x00FF = (0xFF : Byte).toNat) ∧
    (busRead (BitVec.ofNat 16 (pointers.params.dstackBase.toNat + (pointers.sp.toNat + (0x0F : Byte).toNat) % 256)) pointers = .ok (0x78, pointers) ∧
      busRead (BitVec.ofNat 16 (pointers.params.dstackBase.toNat + (pointers.sp.toNat + (0x0F : Byte).toNat + 1) % 256)) pointers =
        .ok (0x56, pointers)) ∧
    (busRead (BitVec.ofNat 16 (pointers.params.rstackBase.toNat + (pointers.r.toNat + (0x1E : Byte).toNat) % 256)) pointers = .ok (0x9A, pointers) ∧
      busRead (BitVec.ofNat 16 (pointers.params.rstackBase.toNat + (pointers.r.toNat + (0x1E : Byte).toNat + 1) % 256)) pointers =
        .ok (0xBC, pointers)) := by
  and_intros <;> rfl

/-- Memory with a word at 0x0300. -/
def wordAt300 : List Host.Cell := [(0x300, 0x34), (0x301, 0x92)]

/-- The operand of width 8 and of width 16 at 0x0300, and an operand that no device covers. -/
theorem operand_reads :
    readSrc .w8 (.mem (.abs 0x0300)) { emulation with mem := wordAt300 } = .ok (0x0034, { emulation with mem := wordAt300 }) ∧
    readSrc .w16 (.mem (.abs 0x0300)) { native with mem := wordAt300 } = .ok (0x9234, { native with mem := wordAt300 }) ∧
    readSrc .w8 (.imm 0x00FF) emulation = .ok (0x00FF, emulation) ∧ readSrc .w16 (.imm 0xFFFF) native = .ok (0xFFFF, native) ∧
    readSrc .w8 (.mem (.abs 0xA000)) mapped = .error (.busUnmapped 0xA000) := ⟨rfl, rfl, rfl, rfl, rfl⟩

theorem witness_LogicResults : (∀ i ∈ [Instr.oraAbs 0x0300, .andAbs 0x0300, .eorAbs 0x0300],
      i.operand.src? = some (.mem (.abs 0x0300)) ∧ (i.op = .ora ∨ i.op = .and ∨ i.op = .eor)) ∧
    emulation.fM = true ∧ native.fM = false ∧
    readSrc mapped.wM (.mem (.abs 0xA000)) mapped = .error (.busUnmapped 0xA000) :=
  ⟨by decide, rfl, rfl, rfl⟩

theorem witness_AdcBinaryResult : (Instr.adcImmM 0xFF).op = .adc ∧ (Instr.adcImmM 0xFF).operand.src? = some (.imm 0xFF) ∧
    emulation.fD = false ∧ native.fD = false ∧ readSrc .w8 (.imm 0xFF) emulation = .ok (0xFF, emulation) ∧
    readSrc .w16 (.imm 0xFF) native = .ok (0xFF, native) := ⟨rfl, rfl, rfl, rfl, rfl, rfl⟩

theorem witness_SbcBinaryResult : (Instr.sbcAbs 0x0300).op = .sbc ∧
    (Instr.sbcAbs 0x0300).operand.src? = some (.mem (.abs 0x0300)) ∧ emulation.fD = false ∧ native.fD = false :=
  ⟨rfl, rfl, rfl, rfl⟩

theorem witness_OverflowMeansSignedOutOfRange : (Instr.adcImmM 0x7F).op = .adc ∧ (Instr.sbcImmM 0x7F).op = .sbc ∧
    (Instr.adcImmM 0x7F).operand.src? = some (.imm 0x7F) ∧ (Instr.sbcImmM 0x7F).operand.src? = some (.imm 0x7F) ∧
    emulation.fD = false ∧ emulation.fM = true ∧ readSrc .w8 (.imm 0x7F) emulation = .ok (0x7F, emulation) :=
  ⟨rfl, rfl, rfl, rfl, rfl, rfl, rfl⟩

/-- Decimal states of both widths with the operands 0x99 and 0x9999 (V-ADC-D1, V-ADC-D4). -/
def decimal8 : State := { emulation with fD := true, al := 0x99 }
def decimal16 : State := { native with fD := true, al := 0x99, ah := 0x99 }

theorem witness_AdcDecimalDigits :
    (readSrc decimal8.wM (.imm 0x01) decimal8 = .ok (0x01, decimal8) ∧
      let c : Nat → Bool := fun k => decide (k ≠ 0)
      let d := fun k => digit k (decimal8.acc decimal8.wM) + digit k (0x01 : Word) + (c k).toNat
      c 0 = decimal8.fC ∧ ∀ k < decimal8.wM.bits / 4, c (k + 1) = decide (15 < if 9 < d k then d k + 6 else d k) ∧
        digit k (0x0000 : Word) = (if 9 < d k then d k + 6 else d k) % 16) ∧
    (readSrc decimal16.wM (.imm 0x0001) decimal16 = .ok (0x0001, decimal16) ∧
      let c : Nat → Bool := fun k => decide (k ≠ 0)
      let d := fun k => digit k (decimal16.acc decimal16.wM) + digit k (0x0001 : Word) + (c k).toNat
      c 0 = decimal16.fC ∧ ∀ k < decimal16.wM.bits / 4, c (k + 1) = decide (15 < if 9 < d k then d k + 6 else d k) ∧
        digit k (0x0000 : Word) = (if 9 < d k then d k + 6 else d k) % 16) :=
  ⟨⟨rfl, by decide⟩, ⟨rfl, by decide⟩⟩

/-- 0x99 - 0x01 with a borrow in is 0x97; so is the 16-bit case, with 0x9999 (R218). -/
theorem witness_SbcDecimalDigits :
    (readSrc decimal8.wM (.imm 0x01) decimal8 = .ok (0x01, decimal8) ∧
      let b : Nat → Bool := fun k => decide (k = 0)
      let d := fun k => (digit k (decimal8.acc decimal8.wM) : Int) - (digit k (0x01 : Word) : Int) - ((b k).toNat : Int)
      b 0 = !decimal8.fC ∧ ∀ k < decimal8.wM.bits / 4, b (k + 1) = decide (d k < 0) ∧
        (digit k (0x97 : Word) : Int) = (if d k < 0 then d k + 10 else d k) % 16) ∧
    (readSrc decimal16.wM (.imm 0x0001) decimal16 = .ok (0x0001, decimal16) ∧
      let b : Nat → Bool := fun k => decide (k = 0)
      let d := fun k => (digit k (decimal16.acc decimal16.wM) : Int) - (digit k (0x0001 : Word) : Int) - ((b k).toNat : Int)
      b 0 = !decimal16.fC ∧ ∀ k < decimal16.wM.bits / 4, b (k + 1) = decide (d k < 0) ∧
        (digit k (0x9997 : Word) : Int) = (if d k < 0 then d k + 10 else d k) % 16) :=
  ⟨⟨rfl, by decide⟩, ⟨rfl, by decide⟩⟩

theorem witness_DecimalValueIsExact : IsBcd (decimal8.wM.bits / 4) (decimal8.acc decimal8.wM) ∧
    IsBcd (decimal16.wM.bits / 4) (decimal16.acc decimal16.wM) ∧ IsBcd (decimal8.wM.bits / 4) 0x01 ∧
    readSrc decimal8.wM (.imm 0x01) decimal8 = .ok (0x01, decimal8) := by
  refine ⟨?_, ?_, ?_, rfl⟩ <;> unfold IsBcd <;> decide

theorem witness_BitResults : (Instr.bitImmM 0xFF).op = .bit ∧ (Instr.bitImmM 0xFF).operand.src? = some (.imm 0xFF) ∧
    (Instr.bitAbs 0x0300).op = .bit ∧ (Instr.bitAbs 0x0300).operand.src? = some (.mem (.abs 0x0300)) := ⟨rfl, rfl, rfl, rfl⟩

theorem witness_TestAndSetResults : let s : State := { native with ah := 0x80, mem := wordAt300 }
    (Instr.tsbAbs 0x0300).operand = .mem (.abs 0x0300) ∧ (Instr.trbAbs 0x0300).operand = .mem (.abs 0x0300) ∧
    effAddr (.abs 0x0300) s = .ok (0x0300, s) ∧ memReadW s.wM 0x0300 s = .ok (0x9234, s) ∧
    memWriteW s.wM 0x0300 (0x9234 ||| s.acc s.wM) s = .ok s ∧
    memWriteW s.wM 0x0300 (0x9234 &&& ~~~(s.acc s.wM)) s = .ok { s with mem := [(0x300, 0x34), (0x301, 0x12)] } ∧
    Memory.wf s.mem = true := ⟨rfl, rfl, rfl, rfl, rfl, rfl, rfl⟩

theorem witness_CompareResults : (∀ i ∈ [Instr.cmpAbs 0x0300, .cpxAbs 0x0300, .cpyAbs 0x0300],
      i.operand.src? = some (.mem (.abs 0x0300))) ∧ emulation.fX = true ∧ native.fX = false ∧
    readSrc mapped.wX (.mem (.abs 0xA000)) mapped = .error (.busUnmapped 0xA000) := ⟨by decide, rfl, rfl, rfl⟩

/-- A read-modify-write of the accumulator and of memory, at both widths: 0x81 shifted left, and 0x9234 rotated right. -/
theorem witness_ShiftResults :
    Updated .w8 .acc { emulation with al := 0x81 } 0x81 0x02 { emulation with al := 0x02 } ∧
    Updated .w16 (.mem (.abs 0x0300)) { native with mem := wordAt300 } 0x9234 0x491A
      { native with mem := [(0x300, 0x1A), (0x301, 0x49)] } ∧
    (0x02 : Word).toNat = 2 * (0x81 : Word).toNat % 2 ^ 8 ∧
    (0x491A : Word).toNat = (0x9234 : Word).toNat / 2 + native.fC.toNat * 2 ^ 15 ∧
    readSrc mapped.wM (.mem (.abs 0xA000)) mapped = .error (.busUnmapped 0xA000) :=
  ⟨⟨rfl, rfl⟩, ⟨_, _, _, rfl, rfl, rfl⟩, rfl, rfl, rfl⟩

/-- 0xFF counted up at width 8, and 0x0000 counted down at width 16. -/
theorem witness_IncDecResults :
    Updated .w8 .acc { emulation with al := 0xFF } 0xFF 0x00 { emulation with al := 0x00 } ∧
    Updated .w16 (.mem (.abs 0x0300)) native 0x0000 0xFFFF { native with mem := [(0x300, 0xFF), (0x301, 0xFF)] } ∧
    (0x00 : Word).toNat = ((0xFF : Word).toNat + 1) % 2 ^ 8 ∧
    (0xFFFF : Word).toNat = ((0x0000 : Word).toNat + (2 ^ 16 - 1)) % 2 ^ 16 :=
  ⟨⟨rfl, rfl⟩, ⟨_, _, _, rfl, rfl, rfl⟩, rfl, rfl⟩

theorem witness_LoadResults : (∀ i ∈ [Instr.ldaAbs 0x0300, .ldxAbs 0x0300, .ldyAbs 0x0300],
      i.operand.src? = some (.mem (.abs 0x0300))) ∧ emulation.fM = true ∧ native.fM = false ∧
    readSrc mapped.wM (.mem (.abs 0xA000)) mapped = .error (.busUnmapped 0xA000) := ⟨by decide, rfl, rfl, rfl⟩

/-- Stores that answer, at the top of memory, and stores that fault at the pointer and at the operand. -/
theorem witness_StoreResults :
    effAddr (.abs 0xFFFF) { native with ah := 0x12, al := 0x34 } = .ok (0xFFFF, { native with ah := 0x12, al := 0x34 }) ∧
    memWriteW .w16 0xFFFF 0x1234 { native with ah := 0x12, al := 0x34 } =
      .ok { native with ah := 0x12, al := 0x34, mem := [(0, 0x12), (0xFFFF, 0x34)] } ∧
    native.busTarget 0xFFFF = .ram ∧ native.busTarget (0xFFFF + 1) = .ram ∧ Memory.wf native.mem = true ∧
    effAddr (.izp 0x00) mapped = .error (.busUnmapped 0x0000) ∧
    memWriteW .w8 0xA000 0x00 mapped = .error (.busUnmapped 0xA000) ∧
    (Instr.staAbs 0xFFFF).op = .sta ∧ (Instr.stxAbs 0xFFFF).op = .stx ∧ (Instr.styAbs 0xFFFF).op = .sty ∧
    (Instr.stzAbs 0xFFFF).op = .stz := ⟨rfl, rfl, rfl, rfl, rfl, rfl, rfl, rfl, rfl, rfl, rfl⟩

theorem witness_JumpResults : memReadW .w16 0x0300 { native with mem := wordAt300 } = .ok (0x9234, { native with mem := wordAt300 }) ∧
    memReadW .w16 (0xFFFF + native.x) native = .ok (0x0000, native) := ⟨rfl, rfl⟩

/-- Memory with the word 0x1234 pushed across the wrap of the data stack. -/
def pushed : State := { native with sp := 0xFE, mem := [(0x100, 0x12), (0x1FF, 0x34)] }

theorem pushes_across_wrap : PushesWord 0x1234 { native with sp := 0x00 } pushed :=
  ⟨_, ⟨_, rfl, rfl⟩, ⟨_, rfl, rfl⟩⟩

theorem pulls_across_wrap : PullsWord 0x1234 pushed { pushed with sp := 0x00 } := ⟨0x34, 0x12, _, rfl, rfl, rfl⟩

theorem witness_SubroutineResults :
    PushesWord ({ native with pc := 0x1235, sp := 0x00 }.pc - 1) { native with pc := 0x1235, sp := 0x00 }
      { pushed with pc := 0x1235 } ∧
    memReadW .w16 (0x0300 + native.x) { native with mem := wordAt300 } = .ok (0x9234, { native with mem := wordAt300 }) ∧
    (∃ t, PushesWord (native.pc - 1) { native with mem := wordAt300 } t) ∧
    PullsWord 0x1234 pushed { pushed with sp := 0x00 } :=
  ⟨⟨_, ⟨_, rfl, rfl⟩, ⟨_, rfl, rfl⟩⟩, rfl, ⟨_, _, ⟨_, rfl, rfl⟩, ⟨_, rfl, rfl⟩⟩, pulls_across_wrap⟩

theorem statusByte_of {p : Byte} {s : State} (h : (p.getLsbD 7 = s.fN ∧ p.getLsbD 6 = s.fV ∧ p.getLsbD 5 = s.fM ∧
    p.getLsbD 4 = (if s.fE then s.fB else s.fX)) ∧ p.getLsbD 3 = s.fD ∧ p.getLsbD 2 = s.fI ∧ p.getLsbD 1 = s.fZ ∧
    p.getLsbD 0 = s.fC) : IsStatusByte p s :=
  ⟨h.1.1, h.1.2.1, h.1.2.2.1, h.1.2.2.2, h.2⟩

/-- BRK of V-BRK-1, whose status byte is 0x0D, and RTI of V-RTI-2. -/
theorem witness_SoftwareInterruptResults :
    (∃ t, EntersInterrupt true 0x0402 0x3000 { native with fC := true, fD := true, brkv := 0x3000 } t) ∧
    (∃ u t, PullsByte 0x10 { native with sp := 0xFC, mem := [(0x1FD, 0x10), (0x1FE, 0x34), (0x1FF, 0x12)] } u ∧
      PullsWord 0x1234 u t) :=
  ⟨⟨_, _, 0x0D, _, ⟨_, ⟨_, rfl, rfl⟩, ⟨_, rfl, rfl⟩⟩, statusByte_of (by decide), ⟨_, rfl, rfl⟩, rfl⟩,
    ⟨_, _, rfl, ⟨0x34, 0x12, _, rfl, rfl, rfl⟩⟩⟩

/-- Both stack windows are RAM in `emulation` and `native`. -/
theorem stack_windows_are_ram (o : Byte) :
    native.busTarget (native.params.dstackBase + zext o) = .ram ∧ native.busTarget (native.params.rstackBase + zext o) = .ram := by
  have ho := o.isLt
  have h : ∀ a : Word, a.toNat < 0x8000 → native.busTarget a = .ram := by
    intro a ha
    have hw : native.inWindow a = false := by
      simp only [State.inWindow, decide_eq_false_iff_not]
      intro hc
      have : (0x8000 : Nat) ≤ a.toNat := hc.1
      omega
    have hd : ¬ (0xFFFF : Word) < a := by rw [BitVec.lt_def]; have := a.isLt; have : (0xFFFF : Word).toNat = 65535 := rfl; omega
    have hn : nearestDevice native.devices a = some ⟨0x0000, 0xFFFF, .ram⟩ := by
      simp [native, emulation, State.reset, nearestDevice]
    simp only [State.busTarget, hw, hn, if_neg hd, Bool.false_eq_true, if_false]
  constructor <;> apply h <;> simp [native, emulation, State.reset, Config.params, zext, BitVec.toNat_add] <;> omega

theorem witness_CallsAndInterruptsReturn : native.ModeInv ∧ emulation.ModeInv ∧ Memory.wf native.mem = true ∧
    ∀ o : Byte, native.busTarget (native.params.dstackBase + zext o) = .ram :=
  ⟨by decide, by decide, rfl, fun o => (stack_windows_are_ram o).1⟩

theorem witness_DataPushResults :
    Pushes .w8 0x0034 emulation { emulation with sp := 0xFE, mem := [(0x1FF, 0x34)] } ∧
    Pushes .w16 0x1234 { native with sp := 0x00 } pushed ∧
    (∃ v, IsStatusByte (loByte v) emulation) ∧
    effAddr (.izp 0xFF) { native with mem := [(0x00, 0x12), (0xFF, 0x34)] } =
      .ok (0x1234, { native with mem := [(0x00, 0x12), (0xFF, 0x34)] }) :=
  ⟨⟨_, rfl, rfl⟩, pushes_across_wrap, ⟨0x24, statusByte_of (by decide)⟩, rfl⟩

theorem witness_DataPullResults :
    Pulls emulation.wM 0x0034 { emulation with sp := 0xFE, mem := [(0x1FF, 0x34)] } { emulation with mem := [(0x1FF, 0x34)] } ∧
    Pulls native.wM 0x1234 pushed { pushed with sp := 0x00 } ∧ Pulls native.wX 0x1234 pushed { pushed with sp := 0x00 } ∧
    PullsByte 0x34 { emulation with sp := 0xFE, mem := [(0x1FF, 0x34)] } { emulation with mem := [(0x1FF, 0x34)] } :=
  ⟨⟨0x34, rfl, rfl⟩, pulls_across_wrap, pulls_across_wrap, rfl⟩

theorem witness_PullUndoesPush : native.ModeInv ∧ Memory.wf native.mem = true ∧
    ∀ o : Byte, native.busTarget (native.params.dstackBase + zext o) = .ram ∧ native.busTarget (native.params.rstackBase + zext o) = .ram :=
  ⟨by decide, rfl, stack_windows_are_ram⟩

/-- Memory with the word 0x1234 pushed across the wrap of the auxiliary stack. -/
def rpushed : State := { native with r := 0xFE, mem := [(0x200, 0x12), (0x2FF, 0x34)] }

theorem witness_AuxiliaryPushResults :
    RPushes .w8 0x0034 emulation { emulation with r := 0xFE, mem := [(0x2FF, 0x34)] } ∧
    RPushes .w16 0x1234 { native with r := 0x00 } rpushed ∧
    effAddr (.izp 0xFF) { native with mem := [(0x00, 0x12), (0xFF, 0x34)] } =
      .ok (0x1234, { native with mem := [(0x00, 0x12), (0xFF, 0x34)] }) :=
  ⟨⟨_, rfl, rfl⟩, ⟨_, ⟨_, rfl, rfl⟩, ⟨_, rfl, rfl⟩⟩, rfl⟩

theorem witness_AuxiliaryPullResults :
    RPulls emulation.wM 0x0034 { emulation with r := 0xFE, mem := [(0x2FF, 0x34)] } { emulation with mem := [(0x2FF, 0x34)] } ∧
    RPulls native.wX 0x1234 rpushed { rpushed with r := 0x00 } ∧ RPulls .w16 0x1234 rpushed { rpushed with r := 0x00 } :=
  ⟨⟨0x34, rfl, rfl⟩, ⟨0x34, 0x12, _, rfl, rfl, rfl⟩, ⟨0x34, 0x12, _, rfl, rfl, rfl⟩⟩

theorem witness_ThreadedCodeResults :
    RPushes .w16 { native with i := 0x1234, r := 0x00 }.i { native with i := 0x1234, r := 0x00 } { rpushed with i := 0x1234 } ∧
    memReadW .w16 { native with i := 0xFFFF }.i { native with i := 0xFFFF } = .ok (0x0000, { native with i := 0xFFFF }) ∧
    memReadW emulation.wM emulation.i emulation = .ok (0x0000, emulation) ∧
    memReadW native.wM native.i native = .ok (0x0000, native) :=
  ⟨⟨_, ⟨_, rfl, rfl⟩, ⟨_, rfl, rfl⟩⟩, rfl, rfl, rfl⟩

theorem witness_ModeExchangeResults : { emulation with fC := true }.fC = true ∧ emulation.fC = false := ⟨rfl, rfl⟩

theorem witness_WidthRoundTrip : (∃ t, exec (.sep 0x20) native = .next t ∧ t.fM ≠ native.fM) ∧
    (∃ t, exec (.sep 0x10) native = .next t ∧ t.fX ≠ native.fX) ∧ (∃ t, exec .xce emulation = .next t ∧ t.fE ≠ emulation.fE) ∧
    native.fE = false ∧ native.fM = false :=
  ⟨⟨_, rfl, by decide⟩, ⟨_, rfl, by decide⟩, ⟨_, rfl, by decide⟩, rfl, rfl⟩

theorem witness_MulResults : (Instr.mulAbs 0x0300).op = .mul ∧ (Instr.mulAbs 0x0300).operand = .mem (.abs 0x0300) ∧
    readSrc .w16 (.mem (.abs 0x0300)) { emulation with mem := wordAt300 } =
      .ok (0x9234, { emulation with mem := wordAt300 }) ∧ emulation.fC ≠ emulation.params.muldivSignedWhenC ∧
    readSrc .w16 (.mem (.abs 0x0300)) { emulation with fC := true, mem := wordAt300 } =
      .ok (0x9234, { emulation with fC := true, mem := wordAt300 }) := ⟨rfl, rfl, rfl, by decide, rfl⟩

/-- The divisors 0, 0x9234 unsigned, and 0xFFFE where signed, with the dividend -7: quotient 3 and remainder -1 (V-MD-6, V-MD-7 with
the signs the other way). -/
theorem witness_DivResults : (Instr.divAbs 0x0300).op = .div ∧ (Instr.divAbs 0x0300).operand = .mem (.abs 0x0300) ∧
    readSrc .w16 (.mem (.abs 0x0300)) emulation = .ok (0x0000, emulation) ∧
    readSrc .w16 (.mem (.abs 0x0300)) { emulation with mem := wordAt300 } =
      .ok (0x9234, { emulation with mem := wordAt300 }) ∧ emulation.fC ≠ emulation.params.muldivSignedWhenC ∧
    (let s : State := { emulation with
        d := 0xFFFF, ah := 0xFF, al := 0xF9, fC := true, mem := [(0x300, 0xFE), (0x301, 0xFF)] };
      readSrc .w16 (.mem (.abs 0x0300)) s = .ok (0xFFFE, s) ∧
      s.d.toInt * 65536 + ((mkWord s.al s.ah).toNat : Int) = 3 * (0xFFFE : Word).toInt + (-1) ∧
      ((-1 : Int).natAbs < (0xFFFE : Word).toInt.natAbs) ∧ s.d.msb = true ∧ s.fC = s.params.muldivSignedWhenC) :=
  ⟨rfl, rfl, rfl, rfl, by decide, rfl, by decide, by decide, by decide, rfl⟩

theorem witness_MmuResults : ∀ k ∈ [(0x07 : Byte), 0x7F, 0x87, 0xFE],
    6 < k.toNat ∧ (k.toNat < 0x80 ∨ 0x86 < k.toNat) ∧ k ≠ 0xFF := by decide

theorem emulation_enabled : emulation.Enabled := by unfold State.Enabled; decide

/-- A three-byte instruction across the top of memory, with an IRQ that fI masks, and without one. -/
theorem witness_StepRunsDecodedInstruction :
    let s : State := { emulation with pc := 0xFFFE, irq := true, mem := [(0x00, 0x12), (0xFFFE, 0x4C), (0xFFFF, 0x34)] }
    s.Enabled ∧ s.waiting = false ∧ s.nmi = false ∧ (s.irq = false ∨ s.fI = true) ∧
    decodeIn s.params.illegalOpcodes s.wM s.wX [0x4C, 0x34, 0x12] = .ok (.jmpAbs 0x1234, []) ∧
    ∀ (k : Nat) (h : k < [(0x4C : Byte), 0x34, 0x12].length), s.busTarget (s.pc + BitVec.ofNat 16 k) = .ram ∧
      Memory.read s.mem (s.pc + BitVec.ofNat 16 k).toNat = [(0x4C : Byte), 0x34, 0x12][k] :=
  ⟨emulation_enabled, rfl, rfl, .inr rfl, rfl, by decide⟩

theorem witness_InterruptIsEnteredBeforeTheFetch :
    (let s : State := { emulation with nmi := true, irq := true, fI := false };
      let u : State := { s with trap := false, nmi := false };
      s.Enabled ∧ s.waiting = false ∧ s.nmi = true ∧ s.params.nmiVector = .brkv ∧ ∃ t, EntersInterrupt false s.pc (nmiVector u) u t) ∧
    (let s : State := { emulation with
        irq := true, fI := false, params := { Config.params with irqVector := .constant 0x3000 } };
      let u : State := { s with trap := false, irq := false };
      s.Enabled ∧ s.waiting = false ∧ s.nmi = false ∧ s.irq = true ∧ s.fI = false ∧
        s.params.irqVector = .constant 0x3000 ∧ ∃ t, EntersInterrupt false s.pc (irqVector u) u t) :=
  ⟨⟨emulation_enabled, rfl, rfl, rfl,
      ⟨_, _, 0x20, _, ⟨_, ⟨_, rfl, rfl⟩, ⟨_, rfl, rfl⟩⟩, statusByte_of (by decide), ⟨_, rfl, rfl⟩, rfl⟩⟩,
    ⟨emulation_enabled, rfl, rfl, rfl, rfl, rfl,
      ⟨_, _, 0x20, _, ⟨_, ⟨_, rfl, rfl⟩, ⟨_, rfl, rfl⟩⟩, statusByte_of (by decide), ⟨_, rfl, rfl⟩, rfl⟩⟩⟩

theorem witness_MachineStepEnds : emulation.activePeripheral = none ∧ mapped.activePeripheral = some 7 ∧
    (redBusTick { emulation with halted := true }).halted = true ∧
    (let t := redBusTick { emulation with waiting := true, tokens := 1 };
      t.halted = false ∧ t.waiting = true ∧ 0 < t.tokens) ∧
    (let t := redBusTick { emulation with waiting := true };
      t.halted = false ∧ (t.waiting = false ∨ t.tokens = 0)) := by
  and_intros <;> first | rfl | decide

theorem witness_BlockedMachineTakesNoStep :
    distinctStarts [⟨0x0000, 0x00FF, .ram⟩, ⟨0x0000, 0xFFFF, .ram⟩] = false ∧
    { emulation with halted := true }.halted = true ∧
    (emulation.halted = false ∧ { emulation with running := false }.running = false) ∧
    (emulation.running = true ∧ emulation.tokens = 0 ∧ 0 < { emulation with tokens := 1 }.tokens ∧
      { emulation with waiting := true }.waiting = true) := by decide

theorem witness_HostMovesAreAsListed : emulation.running = true ∧
    { emulation with running := false }.running = false ∧ emulation.wasReset = true ∧
    { emulation with running := false, wasReset := false }.wasReset = false ∧ distinctStarts emulation.devices = true := by decide

theorem witness_StepCountsAndTraps :
    (∃ t, step { emulation with mem := [(0x400, 0xFF)] } = .next t ∧ t.trap = true) ∧
    (∃ t, step { emulation with trap := true, mem := [(0x400, 0xEA)] } = .next t ∧ t.trap = false) :=
  ⟨⟨_, rfl, rfl⟩, ⟨_, rfl, rfl⟩⟩

/-- For each clause an instruction that changes what the clause is about. -/
theorem witness_OnlyNamedInstructionsWrite :
    after .xce emulation (·.fE) = some false ∧ after .brk emulation (·.fB) = some true ∧
    after .sed emulation (·.fD) = some true ∧ after .cli emulation (·.fI) = some false ∧
    after (.sep 0x40) emulation (·.fV) = some true ∧ after .sec emulation (·.fC) = some true ∧
    after .pha emulation (·.sp) = some 0xFE ∧ after .rha emulation (·.r) = some 0xFE ∧
    after .txi { emulation with x := 1 } (·.i) = some 1 ∧ after .tad { emulation with al := 1 } (·.d) = some 1 ∧
    after (.mmu 0x06) emulation (·.por) = some 0 ∧ after (.mmu 0x05) emulation (·.brkv) = some 0 ∧
    after (.mmu 0x00) { emulation with al := 1 } (·.rbSlot) = some 1 ∧ after (.mmu 0x01) emulation (·.rbWindow) = some 0 ∧
    after (.mmu 0x02) emulation (·.rbEnabled) = some true ∧ after (.mmu 0x03) { emulation with al := 1 } (·.rbAuxWin) = some 1 ∧
    after (.mmu 0x04) emulation (·.rbAuxEn) = some true ∧ after .illegal emulation (·.trap) = some true ∧
    after .wai emulation (·.waiting) = some true ∧ after .stp emulation (·.halted) = some true := by
  and_intros <;> decide

theorem emulation_covered : emulation.DevicesCover := fun a =>
  ⟨⟨0x0000, 0xFFFF, .ram⟩, by simp [emulation, State.reset, nearestDevice], by simp only [BitVec.le_def]; have := a.isLt; simp; omega⟩

theorem witness_EveryInstructionCompletes : emulation.DevicesCover ∧
    exec (.ldaAbs 0xA000) mapped = .fault (.busUnmapped 0xA000) := ⟨emulation_covered, rfl⟩

theorem witness_EnabledStepAnswers : emulation.DevicesCover ∧ emulation.Enabled ∧
    { emulation with waiting := true, tokens := 1 }.Enabled :=
  ⟨emulation_covered, emulation_enabled, rfl, rfl, rfl, fun _ => by decide⟩

theorem witness_StepKeepsInvariant : (emulation.Inv ∧ ∃ t, step emulation = .next t) ∧
    ∀ m ∈ [HostMove.assertIrq, .assertNmi, .signal, .stop, .reset, .run, .install 0xFF 7],
      (hostMove m { emulation with running := false }).isSome = true :=
  ⟨⟨by decide, _, rfl⟩, by decide⟩

theorem witness_ResetMeetsInvariant :
    let p : Platform := ⟨Config.params, ⟨true, 0xFF, 0xFF00, 0x0000, true⟩, 0x0400, 0x2000, 2, [⟨0x0000, 0xFFFF, .ram⟩], [(0x400, 0xEA)], Vector.replicate 256 none, true⟩
    p.Admitted := by decide

end Sys2Proof.Tests
end

section
/-! PROOFS. Logic and compare (41_arith_logic.md): the opcode rows, the shape that operations on a source operand share,
and what ORA, AND, EOR, CMP, CPX and CPY answer at each width. -/

namespace Sys2Proof

/-! ## Rows of the opcode table -/

/-- Whether an opcode byte is that of an operation exactly where it stands in the rows with its addressing mode. -/
abbrev RowAgrees (op : Op) (rows : List (Byte × Mode)) (b : Byte) : Prop :=
  (instrOf .w8 .w8 b 0 0).op = op ↔ (b, (instrOf .w8 .w8 b 0 0).operand.mode) ∈ rows

/-- The rows of an operation, checked over the 16 × 16 opcode map. -/
theorem rowsOf_of_map {op : Op} {rows : List (Byte × Mode)}
    (h : ∀ hi < 16, ∀ lo < 16, RowAgrees op rows (BitVec.ofNat 8 (16 * hi + lo))) : RowsOf op rows := by
  refine rowsOf_of_opcodes (byte_cases fun n hn => ?_)
  have hcell := h (n / 16) (by omega) (n % 16) (by omega)
  rwa [Nat.div_add_mod] at hcell

theorem rowsOf_ora : RowsOf .ora (thirteenModes 0x00) := rowsOf_of_map (by decide)
theorem rowsOf_and : RowsOf .and (thirteenModes 0x20) := rowsOf_of_map (by decide)
theorem rowsOf_eor : RowsOf .eor (thirteenModes 0x40) := rowsOf_of_map (by decide)
theorem rowsOf_cmp : RowsOf .cmp (thirteenModes 0xC0) := rowsOf_of_map (by decide)
theorem rowsOf_cpx : RowsOf .cpx [(0xE0, .immX), (0xE4, .zp), (0xEC, .abs)] := rowsOf_of_map (by decide)
theorem rowsOf_cpy : RowsOf .cpy [(0xC0, .immX), (0xC4, .zp), (0xCC, .abs)] := rowsOf_of_map (by decide)

/-! ## Low bytes -/

theorem loByte_or (a b : Word) : loByte (a ||| b) = loByte a ||| loByte b := BitVec.setWidth_or
theorem loByte_and (a b : Word) : loByte (a &&& b) = loByte a &&& loByte b := BitVec.setWidth_and
theorem loByte_xor (a b : Word) : loByte (a ^^^ b) = loByte a ^^^ loByte b := BitVec.setWidth_xor

theorem loByte_sub (a b : Word) : loByte (a - b) = loByte a - loByte b := by
  simp only [loByte]
  bv_omega

/-- Zero-extension keeps the unsigned value. -/
theorem toNat_zext (b : Byte) : (zext b).toNat = b.toNat :=
  BitVec.toNat_setWidth_of_le (by decide)

end Sys2Proof

namespace Sys2Proof.Machine

/-! ## Operations on a source operand -/

/-- The shape that the operations on a source operand share: the operand is read, then `g` of it changes the state. -/
def withOperand (w : Width) (g : Word → State → State) (src : Src) (s : State) : Except Fault State := do
  let (m, t) ← readSrc w src s
  return g m t

/-- The operand read leaves everything but the record of interactions, so `g` sees the registers as they were. -/
theorem withOperand_ok {w : Width} {src : Src} {s t : State} {m : Word} (g : Word → State → State)
    (h : readSrc w src s = .ok (m, t)) : withOperand w g src s = .ok (g m { s with events := t.events }) := by
  have ht : t = { s with events := t.events } := readSrc_readOnly h
  rw [withOperand, h, ← ht]
  rfl

theorem withOperand_error {w : Width} {src : Src} {s : State} {f : Fault} (g : Word → State → State)
    (h : readSrc w src s = .error f) : withOperand w g src s = .error f := by
  rw [withOperand, h]
  rfl

/-! ## ORA, AND and EOR -/

/-- The accumulator combined with an operand by `f`, and N and Z of the result (R210, R211, R212). -/
def State.combine (f : Word → Word → Word) (w : Width) (m : Word) (s : State) : State :=
  (s.setAcc w (f (s.acc w) m)).setNZ w (f (s.acc w) m)

theorem opOra_eq (src : Src) (s : State) : opOra src s = withOperand s.wM (State.combine (· ||| ·) s.wM) src s := rfl
theorem opAnd_eq (src : Src) (s : State) : opAnd src s = withOperand s.wM (State.combine (· &&& ·) s.wM) src s := rfl
theorem opEor_eq (src : Src) (s : State) : opEor src s = withOperand s.wM (State.combine (· ^^^ ·) s.wM) src s := rfl

/-- At width 8, where `f` acts on the low bytes as `g`, the result is that of `g`, and `AH` stays. -/
theorem combine_w8 {f : Word → Word → Word} {g : Byte → Byte → Byte}
    (hg : ∀ a b, loByte (f a b) = g (loByte a) (loByte b)) (m : Word) (s : State) :
    s.combine f .w8 m = s.accResult8 (g s.al (loByte m)) := by
  rw [State.combine, setAcc_setNZ_w8, hg, acc_w8, loByte_zext]

theorem combine_w16 (f : Word → Word → Word) (m : Word) (s : State) :
    s.combine f .w16 m = s.accResult16 (f (mkWord s.al s.ah) m) := by
  rw [State.combine, setAcc_setNZ_w16, acc_w16]

section Logic

variable {f : Word → Word → Word} {src : Src} {s t : State} {m : Word}

theorem finish_combine_w8 {g : Byte → Byte → Byte} (hg : ∀ a b, loByte (f a b) = g (loByte a) (loByte b))
    (hM : s.fM = true) (h : readSrc .w8 src s = .ok (m, t)) :
    finish (withOperand s.wM (State.combine f s.wM) src s) =
      .next { s.accResult8 (g s.al (loByte m)) with events := t.events } := by
  rw [wM_of_fM hM, withOperand_ok _ h, combine_w8 hg, finish_ok]
  rfl

theorem finish_combine_w16 (hM : s.fM = false) (h : readSrc .w16 src s = .ok (m, t)) :
    finish (withOperand s.wM (State.combine f s.wM) src s) =
      .next { s.accResult16 (f (mkWord s.al s.ah) m) with events := t.events } := by
  rw [wM_of_not_fM hM, withOperand_ok _ h, combine_w16, finish_ok]
  rfl

end Logic

section LogicWidths

variable {i : Instr} {src : Src} {s t : State} {m : Word} (hs : i.operand.src? = some src)
include hs

theorem exec_logic_w8 (hM : s.fM = true) (h : readSrc .w8 src s = .ok (m, t)) :
    (i.op = .ora → exec i s = .next { s.accResult8 (s.al ||| loByte m) with events := t.events }) ∧
    (i.op = .and → exec i s = .next { s.accResult8 (s.al &&& loByte m) with events := t.events }) ∧
    (i.op = .eor → exec i s = .next { s.accResult8 (s.al ^^^ loByte m) with events := t.events }) := by
  refine ⟨fun ho => ?_, fun ho => ?_, fun ho => ?_⟩
  · rw [exec_ora s ho hs, opOra_eq, finish_combine_w8 loByte_or hM h]
  · rw [exec_and s ho hs, opAnd_eq, finish_combine_w8 loByte_and hM h]
  · rw [exec_eor s ho hs, opEor_eq, finish_combine_w8 loByte_xor hM h]

theorem exec_logic_w16 (hM : s.fM = false) (h : readSrc .w16 src s = .ok (m, t)) :
    (i.op = .ora → exec i s = .next { s.accResult16 (mkWord s.al s.ah ||| m) with events := t.events }) ∧
    (i.op = .and → exec i s = .next { s.accResult16 (mkWord s.al s.ah &&& m) with events := t.events }) ∧
    (i.op = .eor → exec i s = .next { s.accResult16 (mkWord s.al s.ah ^^^ m) with events := t.events }) := by
  refine ⟨fun ho => ?_, fun ho => ?_, fun ho => ?_⟩
  · rw [exec_ora s ho hs, opOra_eq, finish_combine_w16 hM h]
  · rw [exec_and s ho hs, opAnd_eq, finish_combine_w16 hM h]
  · rw [exec_eor s ho hs, opEor_eq, finish_combine_w16 hM h]

end LogicWidths

/-- A logic operation faults as its operand read does (R210, R211, R212). -/
theorem exec_logic_fault {i : Instr} {src : Src} {s : State} {f : Fault} (ho : i.op = .ora ∨ i.op = .and ∨ i.op = .eor)
    (hs : i.operand.src? = some src) (h : readSrc s.wM src s = .error f) : exec i s = .fault f := by
  obtain ho | ho | ho := ho
  · rw [exec_ora s ho hs, opOra_eq, withOperand_error _ h, finish_error]
  · rw [exec_and s ho hs, opAnd_eq, withOperand_error _ h, finish_error]
  · rw [exec_eor s ho hs, opEor_eq, withOperand_error _ h, finish_error]

/-! ## CMP, CPX and CPY -/

theorem opCmp_eq (src : Src) (s : State) :
    opCmp src s = withOperand s.wM (fun m t => t.compare s.wM (t.acc s.wM) m) src s := rfl
theorem opCpx_eq (src : Src) (s : State) :
    opCpx src s = withOperand s.wX (fun m t => t.compare s.wX (cut s.wX t.x) m) src s := rfl
theorem opCpy_eq (src : Src) (s : State) :
    opCpy src s = withOperand s.wX (fun m t => t.compare s.wX (cut s.wX t.y) m) src s := rfl

/-- At width 8 the comparison of zero-extended bytes is that of the bytes: the low byte of the difference is the bytes'
difference, and it is zero where they are equal (R225). -/
theorem compare_w8 (s : State) (reg m : Byte) : s.compare .w8 (zext reg) (zext m) = s.compareFlags8 reg m := by
  have hdiff : loByte (zext reg - zext m) = reg - m := by rw [loByte_sub, loByte_zext, loByte_zext]
  simp only [State.compare, State.setNZ, State.compareFlags8, topBit_w8, cut_w8, hdiff, beq_eq_decide,
    BitVec.ofNat_eq_ofNat, zext_eq_zero, ← sub_eq_zero (a := reg), toNat_zext, BitVec.le_def]

theorem compare_w16 (s : State) (reg m : Word) : s.compare .w16 reg m = s.compareFlags16 reg m := by
  simp only [State.compare, State.setNZ, State.compareFlags16, topBit_w16, cut_w16, beq_eq_decide, sub_eq_zero,
    BitVec.le_def]

section Compare

variable {src : Src} {s t : State} {m : Word}

theorem finish_compare_w8 {reg : State → Word} {r : Byte} (hreg : reg { s with events := t.events } = zext r)
    (h : readSrc .w8 src s = .ok (m, t)) :
    finish (withOperand .w8 (fun m t => t.compare .w8 (reg t) m) src s) =
      .next { s.compareFlags8 r (loByte m) with events := t.events } := by
  rw [withOperand_ok _ h, hreg, readSrc_w8 h, compare_w8, loByte_zext, finish_ok]
  rfl

theorem finish_compare_w16 {reg : State → Word} {r : Word} (hreg : reg { s with events := t.events } = r)
    (h : readSrc .w16 src s = .ok (m, t)) :
    finish (withOperand .w16 (fun m t => t.compare .w16 (reg t) m) src s) =
      .next { s.compareFlags16 r m with events := t.events } := by
  rw [withOperand_ok _ h, hreg, compare_w16, finish_ok]
  rfl

end Compare

section CompareWidths

variable {i : Instr} {src : Src} {s t : State} {m : Word} (hs : i.operand.src? = some src)
include hs

theorem exec_compare_w8 (h : readSrc .w8 src s = .ok (m, t)) :
    (i.op = .cmp → s.fM = true → exec i s = .next { s.compareFlags8 s.al (loByte m) with events := t.events }) ∧
    (i.op = .cpx → s.fX = true →
      exec i s = .next { s.compareFlags8 (loByte s.x) (loByte m) with events := t.events }) ∧
    (i.op = .cpy → s.fX = true →
      exec i s = .next { s.compareFlags8 (loByte s.y) (loByte m) with events := t.events }) := by
  refine ⟨fun ho hM => ?_, fun ho hX => ?_, fun ho hX => ?_⟩
  · rw [exec_cmp s ho hs, opCmp_eq, wM_of_fM hM]
    exact finish_compare_w8 (acc_w8 _) h
  · rw [exec_cpx s ho hs, opCpx_eq, wX_of_fX hX]
    exact finish_compare_w8 (cut_w8 _) h
  · rw [exec_cpy s ho hs, opCpy_eq, wX_of_fX hX]
    exact finish_compare_w8 (cut_w8 _) h

theorem exec_compare_w16 (h : readSrc .w16 src s = .ok (m, t)) :
    (i.op = .cmp → s.fM = false →
      exec i s = .next { s.compareFlags16 (mkWord s.al s.ah) m with events := t.events }) ∧
    (i.op = .cpx → s.fX = false → exec i s = .next { s.compareFlags16 s.x m with events := t.events }) ∧
    (i.op = .cpy → s.fX = false → exec i s = .next { s.compareFlags16 s.y m with events := t.events }) := by
  refine ⟨fun ho hM => ?_, fun ho hX => ?_, fun ho hX => ?_⟩
  · rw [exec_cmp s ho hs, opCmp_eq, wM_of_not_fM hM]
    exact finish_compare_w16 (acc_w16 _) h
  · rw [exec_cpx s ho hs, opCpx_eq, wX_of_not_fX hX]
    exact finish_compare_w16 (cut_w16 _) h
  · rw [exec_cpy s ho hs, opCpy_eq, wX_of_not_fX hX]
    exact finish_compare_w16 (cut_w16 _) h

/-- A comparison faults as its operand read does, at the width of its register (R222, R223, R224). -/
theorem exec_compare_fault (f : Fault) :
    (i.op = .cmp → readSrc s.wM src s = .error f → exec i s = .fault f) ∧
    (i.op = .cpx ∨ i.op = .cpy → readSrc s.wX src s = .error f → exec i s = .fault f) := by
  refine ⟨fun ho h => ?_, fun ho h => ?_⟩
  · rw [exec_cmp s ho hs, opCmp_eq, withOperand_error _ h, finish_error]
  · obtain ho | ho := ho
    · rw [exec_cpx s ho hs, opCpx_eq, withOperand_error _ h, finish_error]
    · rw [exec_cpy s ho hs, opCpy_eq, withOperand_error _ h, finish_error]

end CompareWidths

/-! ## The obligations -/

/-- Settles O11: each operation is `State.combine` with its bitwise operator, at the width that fM selects. -/
theorem logicResults : Obligations.LogicResults := by
  unfold Obligations.LogicResults
  refine ⟨rowsOf_ora, rowsOf_and, rowsOf_eor, fun i src s hs => ⟨?_, ?_, ?_⟩⟩
  · exact fun hM m t h => exec_logic_w8 hs hM h
  · exact fun hM m t h => exec_logic_w16 hs hM h
  · exact fun f ho h => exec_logic_fault ho hs h

/-- Settles O20: each operation is `State.compare` of its register at the width that fM or fX selects. -/
theorem compareResults : Obligations.CompareResults := by
  unfold Obligations.CompareResults
  refine ⟨rowsOf_cmp, rowsOf_cpx, rowsOf_cpy, fun i src s hs => ⟨?_, ?_, ?_⟩⟩
  · exact fun m t h => exec_compare_w8 hs h
  · exact fun m t h => exec_compare_w16 hs h
  · exact fun f => exec_compare_fault hs f

end Sys2Proof.Machine
end

section
/-! PROOFS. Shifts, rotates, increments and decrements (42_shift_incdec.md): the opcode rows, what each operation computes
in numbers, the shape that the read-modify-write operations share, and the counts of the index registers. -/

namespace Sys2Proof

/-! ## Rows of the opcode table -/

theorem rowsOf_asl : RowsOf .asl [(0x06, .zp), (0x0A, .acc), (0x0E, .abs), (0x16, .zpX), (0x1E, .absX)] :=
  rowsOf_of_map (by decide)
theorem rowsOf_lsr : RowsOf .lsr [(0x46, .zp), (0x4A, .acc), (0x4E, .abs), (0x56, .zpX), (0x5E, .absX)] :=
  rowsOf_of_map (by decide)
theorem rowsOf_rol : RowsOf .rol [(0x26, .zp), (0x2A, .acc), (0x2E, .abs), (0x36, .zpX), (0x3E, .absX)] :=
  rowsOf_of_map (by decide)
theorem rowsOf_ror : RowsOf .ror [(0x66, .zp), (0x6A, .acc), (0x6E, .abs), (0x76, .zpX), (0x7E, .absX)] :=
  rowsOf_of_map (by decide)
theorem rowsOf_inc : RowsOf .inc [(0x1A, .acc), (0xE6, .zp), (0xEE, .abs), (0xF6, .zpX), (0xFE, .absX)] :=
  rowsOf_of_map (by decide)
theorem rowsOf_dec : RowsOf .dec [(0x3A, .acc), (0xC6, .zp), (0xCE, .abs), (0xD6, .zpX), (0xDE, .absX)] :=
  rowsOf_of_map (by decide)
theorem rowsOf_inx : RowsOf .inx [(0xE8, .implied)] := rowsOf_of_map (by decide)
theorem rowsOf_iny : RowsOf .iny [(0xC8, .implied)] := rowsOf_of_map (by decide)
theorem rowsOf_dex : RowsOf .dex [(0xCA, .implied)] := rowsOf_of_map (by decide)
theorem rowsOf_dey : RowsOf .dey [(0x88, .implied)] := rowsOf_of_map (by decide)

theorem loByte_add (a b : Word) : loByte (a + b) = loByte a + loByte b := by
  simp only [loByte]
  bv_omega

end Sys2Proof

namespace Sys2Proof.Machine

/-! ## The operations in numbers -/

theorem toNat_cut (w : Width) (v : Word) : (cut w v).toNat = v.toNat % 2 ^ w.bits := by
  cases w with
  | w8 => rw [cut_w8, toNat_zext, loByte, BitVec.toNat_setWidth]; rfl
  | w16 => exact (Nat.mod_eq_of_lt v.isLt).symm

theorem cut_of_lt {w : Width} {v : Word} (h : v.toNat < 2 ^ w.bits) : cut w v = v :=
  BitVec.eq_of_toNat_eq (by rw [toNat_cut, Nat.mod_eq_of_lt h])

/-- Reduction to a word and then to a width is reduction to the width. -/
theorem mod_word_mod_width (w : Width) (n : Nat) : n % 2 ^ 16 % 2 ^ w.bits = n % 2 ^ w.bits :=
  Nat.mod_mod_of_dvd n (by cases w <;> decide)

/-- A carry in bit 0 of an even word. -/
theorem toNat_shiftLeft_or_carry (v : Word) (c : Bool) :
    ((v <<< 1) ||| (BitVec.ofBool c).setWidth 16).toNat = (2 * v.toNat + c.toNat) % 2 ^ 16 := by
  have hdisjoint : (v <<< 1) &&& (BitVec.ofBool c).setWidth 16 = 0 := by
    ext k
    cases k <;> simp
  rw [← BitVec.add_eq_or_of_and_eq_zero _ _ hdisjoint]
  cases c <;> simp [BitVec.toNat_add, Nat.shiftLeft_eq] <;> omega

/-- A carry in the top bit of a width, above a halved value. -/
theorem toNat_shiftRight_or_carry {w : Width} {v : Word} (h : v.toNat < 2 ^ w.bits) (c : Bool) :
    ((v >>> 1) ||| ((BitVec.ofBool c).setWidth 16 <<< (w.bits - 1))).toNat =
      v.toNat / 2 + c.toNat * 2 ^ (w.bits - 1) := by
  have hhalf : v.toNat / 2 < 2 ^ (w.bits - 1) := by cases w <;> simp [Width.bits] at h ⊢ <;> omega
  have htop : ((BitVec.ofBool c).setWidth 16 <<< (w.bits - 1)).toNat = c.toNat <<< (w.bits - 1) := by
    cases c <;> cases w <;> rfl
  rw [BitVec.toNat_or, htop, BitVec.toNat_ushiftRight, Nat.shiftRight_eq_div_pow, pow_one, Nat.or_comm,
    ← Nat.shiftLeft_add_eq_or_of_lt hhalf, Nat.shiftLeft_eq, Nat.add_comm]

theorem toNat_shiftAsl (w : Width) (v : Word) (c : Bool) : (shiftAsl w v c).1.toNat = 2 * v.toNat % 2 ^ w.bits := by
  rw [shiftAsl, toNat_cut, BitVec.toNat_shiftLeft, mod_word_mod_width, Nat.shiftLeft_eq, pow_one, Nat.mul_comm]

theorem toNat_shiftLsr (w : Width) (v : Word) (c : Bool) : (shiftLsr w v c).1.toNat = v.toNat / 2 := by
  rw [shiftLsr, BitVec.toNat_ushiftRight, Nat.shiftRight_eq_div_pow, pow_one]

theorem toNat_shiftRol (w : Width) (v : Word) (c : Bool) :
    (shiftRol w v c).1.toNat = (2 * v.toNat + c.toNat) % 2 ^ w.bits := by
  rw [shiftRol, toNat_cut, toNat_shiftLeft_or_carry, mod_word_mod_width]

theorem toNat_shiftRor {w : Width} {v : Word} (h : v.toNat < 2 ^ w.bits) (c : Bool) :
    (shiftRor w v c).1.toNat = v.toNat / 2 + c.toNat * 2 ^ (w.bits - 1) :=
  toNat_shiftRight_or_carry h c

theorem toNat_cut_add_one (w : Width) (v : Word) : (cut w (v + 1)).toNat = (v.toNat + 1) % 2 ^ w.bits := by
  rw [toNat_cut, BitVec.toNat_add, mod_word_mod_width]
  rfl

theorem toNat_cut_sub_one (w : Width) (v : Word) :
    (cut w (v - 1)).toNat = (v.toNat + (2 ^ w.bits - 1)) % 2 ^ w.bits := by
  rw [toNat_cut, BitVec.toNat_sub, mod_word_mod_width]
  cases w <;> simp [Width.bits] <;> omega

/-- Halving keeps a value below a width, with a carry in its top bit too. -/
theorem half_add_carry_lt {w : Width} {n : Nat} (h : n < 2 ^ w.bits) (c : Bool) :
    n / 2 + c.toNat * 2 ^ (w.bits - 1) < 2 ^ w.bits := by
  have hc := c.toNat_le
  cases w <;> simp only [Width.bits] at h ⊢ <;> omega

/-! ## Read-modify-write operations -/

theorem setNZ_of_lt {w : Width} {r : Word} (h : r.toNat < 2 ^ w.bits) (s : State) :
    s.setNZ w r = { s with fN := r.getLsbD (w.bits - 1), fZ := decide (r = 0) } := by
  rw [State.setNZ, cut_of_lt h, beq_eq_decide]
  rfl

/-- The shape that the read-modify-write operations share: `f` of the operand is written back and gives N and Z, `g` of the
operand as read changes the flags besides. -/
def modifyWith (w : Width) (f : Word → Word) (g : Word → State → State) (loc : Loc) (s : State) :
    Except Fault State := do
  let (v, t) ← modifyLoc w loc f s
  return (g v t).setNZ w (f v)

/-- A shift puts the bit shifted out into fC. -/
theorem shiftLoc_eq (shift : Width → Word → Bool → Word × Bool) (loc : Loc) (s : State) :
    shiftLoc shift loc s = modifyWith s.wM (fun v => (shift s.wM v s.fC).1)
      (fun v t => { t with fC := (shift s.wM v s.fC).2 }) loc s := rfl

theorem opInc_eq (loc : Loc) (s : State) :
    opInc loc s = modifyWith s.wM (fun v => cut s.wM (v + 1)) (fun _ t => t) loc s := rfl
theorem opDec_eq (loc : Loc) (s : State) :
    opDec loc s = modifyWith s.wM (fun v => cut s.wM (v - 1)) (fun _ t => t) loc s := rfl

theorem finish_modifyWith {w : Width} {f : Word → Word} {loc : Loc} {s t : State} {v r : Word}
    (g : Word → State → State) (h : Updated w loc s v r t) (hr : r.toNat = (f v).toNat) (hlt : r.toNat < 2 ^ w.bits) :
    finish (modifyWith w f g loc s) = .next { g v t with fN := r.getLsbD (w.bits - 1), fZ := decide (r = 0) } := by
  have hrf : r = f v := BitVec.eq_of_toNat_eq hr
  rw [modifyWith, h.modifyLoc_eq hrf, ← setNZ_of_lt hlt, hrf]
  rfl

/-- A read-modify-write of memory faults where the operand read does: the address or the operand cannot be read. -/
theorem modifyLoc_error {w : Width} {m : MemMode} {s : State} {e : Fault} (f : Word → Word)
    (h : readSrc w (.mem m) s = .error e) : modifyLoc w (.mem m) f s = .error e := by
  cases hea : effAddr m s with
  | error e' =>
    simp only [readSrc, hea] at h
    simp only [modifyLoc, hea]
    cases h
    rfl
  | ok p =>
    simp only [readSrc, hea, ok_bind] at h
    simp only [modifyLoc, hea, ok_bind, h]
    rfl

theorem finish_modifyWith_error {w : Width} {m : MemMode} {s : State} {e : Fault} (f : Word → Word)
    (g : Word → State → State) (h : readSrc w (.mem m) s = .error e) :
    finish (modifyWith w f g (.mem m) s) = .fault e := by
  rw [modifyWith, modifyLoc_error f h]
  rfl

section Faults

variable {i : Instr} {m : MemMode} {s : State} {e : Fault} (hm : i.operand = .mem m)
  (h : readSrc s.wM (.mem m) s = .error e)
include hm h

/-- A shift or rotate of memory faults as its operand read does (R240, R241, R242, R243). -/
theorem exec_shift_fault (ho : i.op ∈ [Op.asl, .lsr, .rol, .ror]) : exec i s = .fault e := by
  have hl : i.operand.loc? = some (.mem m) := by rw [hm]; rfl
  simp only [List.mem_cons, List.not_mem_nil, or_false] at ho
  obtain ho | ho | ho | ho := ho
  · rw [exec_asl s ho hl, opAsl, shiftLoc_eq, finish_modifyWith_error _ _ h]
  · rw [exec_lsr s ho hl, opLsr, shiftLoc_eq, finish_modifyWith_error _ _ h]
  · rw [exec_rol s ho hl, opRol, shiftLoc_eq, finish_modifyWith_error _ _ h]
  · rw [exec_ror s ho hl, opRor, shiftLoc_eq, finish_modifyWith_error _ _ h]

/-- INC and DEC of memory fault as their operand read does (R244, R245). -/
theorem exec_incDec_fault (ho : i.op ∈ [Op.inc, .dec]) : exec i s = .fault e := by
  have hl : i.operand.loc? = some (.mem m) := by rw [hm]; rfl
  simp only [List.mem_cons, List.not_mem_nil, or_false] at ho
  obtain ho | ho := ho
  · rw [exec_inc s ho hl, opInc_eq, finish_modifyWith_error _ _ h]
  · rw [exec_dec s ho hl, opDec_eq, finish_modifyWith_error _ _ h]

end Faults

section Results

variable {i : Instr} {loc : Loc} {s t : State} {v r : Word} (hl : i.operand.loc? = some loc)
  (h : Updated s.wM loc s v r t)
include hl h

theorem exec_asl_result (ho : i.op = .asl) (hr : r.toNat = 2 * v.toNat % 2 ^ s.wM.bits) :
    exec i s = .next { t with
      fC := v.getLsbD (s.wM.bits - 1), fN := r.getLsbD (s.wM.bits - 1), fZ := decide (r = 0) } := by
  have hlt : r.toNat < 2 ^ s.wM.bits := hr ▸ Nat.mod_lt _ (Nat.two_pow_pos _)
  rw [exec_asl s ho hl, opAsl, shiftLoc_eq, finish_modifyWith _ h (hr.trans (toNat_shiftAsl ..).symm) hlt]
  rfl

theorem exec_lsr_result (ho : i.op = .lsr) (hr : r.toNat = v.toNat / 2) :
    exec i s = .next { t with fC := v.getLsbD 0, fN := r.getLsbD (s.wM.bits - 1), fZ := decide (r = 0) } := by
  have hlt : r.toNat < 2 ^ s.wM.bits := hr ▸ (Nat.div_le_self ..).trans_lt h.operand_lt
  rw [exec_lsr s ho hl, opLsr, shiftLoc_eq, finish_modifyWith _ h (hr.trans (toNat_shiftLsr ..).symm) hlt]
  rfl

theorem exec_rol_result (ho : i.op = .rol) (hr : r.toNat = (2 * v.toNat + s.fC.toNat) % 2 ^ s.wM.bits) :
    exec i s = .next { t with
      fC := v.getLsbD (s.wM.bits - 1), fN := r.getLsbD (s.wM.bits - 1), fZ := decide (r = 0) } := by
  have hlt : r.toNat < 2 ^ s.wM.bits := hr ▸ Nat.mod_lt _ (Nat.two_pow_pos _)
  rw [exec_rol s ho hl, opRol, shiftLoc_eq, finish_modifyWith _ h (hr.trans (toNat_shiftRol ..).symm) hlt]
  rfl

theorem exec_ror_result (ho : i.op = .ror) (hr : r.toNat = v.toNat / 2 + s.fC.toNat * 2 ^ (s.wM.bits - 1)) :
    exec i s = .next { t with fC := v.getLsbD 0, fN := r.getLsbD (s.wM.bits - 1), fZ := decide (r = 0) } := by
  have hlt : r.toNat < 2 ^ s.wM.bits := hr ▸ half_add_carry_lt h.operand_lt s.fC
  rw [exec_ror s ho hl, opRor, shiftLoc_eq,
    finish_modifyWith _ h (hr.trans (toNat_shiftRor h.operand_lt _).symm) hlt]
  rfl

theorem exec_inc_result (ho : i.op = .inc) (hr : r.toNat = (v.toNat + 1) % 2 ^ s.wM.bits) :
    exec i s = .next { t with fN := r.getLsbD (s.wM.bits - 1), fZ := decide (r = 0) } := by
  have hlt : r.toNat < 2 ^ s.wM.bits := hr ▸ Nat.mod_lt _ (Nat.two_pow_pos _)
  rw [exec_inc s ho hl, opInc_eq, finish_modifyWith _ h (hr.trans (toNat_cut_add_one ..).symm) hlt]

theorem exec_dec_result (ho : i.op = .dec) (hr : r.toNat = (v.toNat + (2 ^ s.wM.bits - 1)) % 2 ^ s.wM.bits) :
    exec i s = .next { t with fN := r.getLsbD (s.wM.bits - 1), fZ := decide (r = 0) } := by
  have hlt : r.toNat < 2 ^ s.wM.bits := hr ▸ Nat.mod_lt _ (Nat.two_pow_pos _)
  rw [exec_dec s ho hl, opDec_eq, finish_modifyWith _ h (hr.trans (toNat_cut_sub_one ..).symm) hlt]

end Results

/-! ## Index registers -/

/-- A result in X with its N and Z, at the width that fX selects. -/
theorem setX_setNZ_wX (s : State) (v : Word) :
    (s.setX s.wX v).setNZ s.wX v = if s.fX then s.xResult8 (loByte v) else s.xResult16 v := by
  split
  next hX => rw [wX_of_fX hX, setX_setNZ_w8]
  next hX => rw [wX_of_not_fX (Bool.eq_false_of_not_eq_true hX), setX_setNZ_w16]

/-- A result in Y with its N and Z, at the width that fX selects. -/
theorem setY_setNZ_wX (s : State) (v : Word) :
    (s.setY s.wX v).setNZ s.wX v = if s.fX then s.yResult8 (loByte v) else s.yResult16 v := by
  split
  next hX => rw [wX_of_fX hX, setY_setNZ_w8]
  next hX => rw [wX_of_not_fX (Bool.eq_false_of_not_eq_true hX), setY_setNZ_w16]

theorem exec_inx_result (s : State) :
    exec .inx s = .next (if s.fX then s.xResult8 (loByte s.x + 1) else s.xResult16 (s.x + 1)) := by
  change finish (.ok ((s.setX s.wX (s.x + 1)).setNZ s.wX (s.x + 1))) = _
  rw [setX_setNZ_wX, loByte_add, finish_ok]
  rfl

theorem exec_iny_result (s : State) :
    exec .iny s = .next (if s.fX then s.yResult8 (loByte s.y + 1) else s.yResult16 (s.y + 1)) := by
  change finish (.ok ((s.setY s.wX (s.y + 1)).setNZ s.wX (s.y + 1))) = _
  rw [setY_setNZ_wX, loByte_add, finish_ok]
  rfl

theorem exec_dex_result (s : State) :
    exec .dex s = .next (if s.fX then s.xResult8 (loByte s.x - 1) else s.xResult16 (s.x - 1)) := by
  change finish (.ok ((s.setX s.wX (s.x - 1)).setNZ s.wX (s.x - 1))) = _
  rw [setX_setNZ_wX, loByte_sub, finish_ok]
  rfl

theorem exec_dey_result (s : State) :
    exec .dey s = .next (if s.fX then s.yResult8 (loByte s.y - 1) else s.yResult16 (s.y - 1)) := by
  change finish (.ok ((s.setY s.wX (s.y - 1)).setNZ s.wX (s.y - 1))) = _
  rw [setY_setNZ_wX, loByte_sub, finish_ok]
  rfl

/-! ## The obligations -/

/-- Settles O21: each operation is `modifyWith` of its shift, whose result the obligation gives in numbers. -/
theorem shiftResults : Obligations.ShiftResults := by
  unfold Obligations.ShiftResults
  refine ⟨rowsOf_asl, rowsOf_lsr, rowsOf_rol, rowsOf_ror, fun i m s e ho hm h => exec_shift_fault hm h ho,
    fun i loc s v r t hl h => ⟨?_, ?_, ?_, ?_, h.frame⟩⟩
  · exact exec_asl_result hl h
  · exact exec_lsr_result hl h
  · exact exec_rol_result hl h
  · exact exec_ror_result hl h

/-- Settles O22: each operation is `modifyWith` of its count, which the obligation gives modulo the width. -/
theorem incDecResults : Obligations.IncDecResults := by
  unfold Obligations.IncDecResults
  refine ⟨rowsOf_inc, rowsOf_dec, fun i m s e ho hm h => exec_incDec_fault hm h ho,
    fun i loc s v r t hl h => ⟨?_, ?_, h.frame⟩⟩
  · exact exec_inc_result hl h
  · exact exec_dec_result hl h

/-- Settles O23: each operation is a count written to its index register at the width that fX selects. -/
theorem indexCountResults : Obligations.IndexCountResults := by
  unfold Obligations.IndexCountResults
  exact ⟨⟨rowsOf_inx, rowsOf_iny, rowsOf_dex, rowsOf_dey⟩, fun s =>
    ⟨exec_inx_result s, exec_iny_result s, exec_dex_result s, exec_dey_result s⟩⟩

end Sys2Proof.Machine
end

section
/-! PROOFS. Loads and stores (43_load_store_transfer.md): the opcode rows, what LDA, LDX and LDY put in their register at the
width it has, and what STA, STX, STY and STZ leave in memory and elsewhere. -/

namespace Sys2Proof

/-! ## Rows of the opcode table -/

theorem rowsOf_lda : RowsOf .lda (thirteenModes 0xA0) := rowsOf_of_map (by decide)
theorem rowsOf_ldx : RowsOf .ldx [(0xA2, .immX), (0xA6, .zp), (0xAE, .abs), (0xB6, .zpY), (0xBE, .absY)] :=
  rowsOf_of_map (by decide)
theorem rowsOf_ldy : RowsOf .ldy [(0xA0, .immX), (0xA4, .zp), (0xAC, .abs), (0xB4, .zpX), (0xBC, .absX)] :=
  rowsOf_of_map (by decide)
theorem rowsOf_stx : RowsOf .stx [(0x86, .zp), (0x8E, .abs), (0x96, .zpY)] := rowsOf_of_map (by decide)
theorem rowsOf_sty : RowsOf .sty [(0x84, .zp), (0x8C, .abs), (0x94, .zpX)] := rowsOf_of_map (by decide)
theorem rowsOf_stz : RowsOf .stz [(0x64, .zp), (0x74, .zpX), (0x9C, .abs), (0x9E, .absX)] := rowsOf_of_map (by decide)

/-- A store has no immediate form: the opcode of that row of the group, 0x89, is `BIT #`. -/
theorem rowsOf_sta : RowsOf .sta ((thirteenModes 0x80).filter fun row => row.1 ≠ 0x89) := rowsOf_of_map (by decide)

theorem op_eq_sta_iff (i : Instr) :
    i.op = .sta ↔ i.opcode ≠ 0x89 ∧ (i.opcode, i.operand.mode) ∈ thirteenModes 0x80 := by
  rw [rowsOf_sta i, List.mem_filter, decide_eq_true_iff, and_comm]

end Sys2Proof

namespace Sys2Proof.Machine

/-! ## LDA, LDX and LDY -/

/-- A result in the accumulator with its N and Z, at the width that fM selects. -/
theorem setAcc_setNZ_wM (s : State) (v : Word) :
    (s.setAcc s.wM v).setNZ s.wM v = if s.fM then s.accResult8 (loByte v) else s.accResult16 v := by
  split
  next hM => rw [wM_of_fM hM, setAcc_setNZ_w8]
  next hM => rw [wM_of_not_fM (Bool.eq_false_of_not_eq_true hM), setAcc_setNZ_w16]

theorem opLda_eq (src : Src) (s : State) :
    opLda src s = withOperand s.wM (fun v t => (t.setAcc s.wM v).setNZ s.wM v) src s := rfl
theorem opLdx_eq (src : Src) (s : State) :
    opLdx src s = withOperand s.wX (fun v t => (t.setX s.wX v).setNZ s.wX v) src s := rfl
theorem opLdy_eq (src : Src) (s : State) :
    opLdy src s = withOperand s.wX (fun v t => (t.setY s.wX v).setNZ s.wX v) src s := rfl

section Loads

variable {i : Instr} {src : Src} {s t : State} {m : Word} (hs : i.operand.src? = some src)
include hs

theorem exec_lda_result (ho : i.op = .lda) (h : readSrc s.wM src s = .ok (m, t)) :
    exec i s = .next (if s.fM then { s.accResult8 (loByte m) with events := t.events }
      else { s.accResult16 m with events := t.events }) := by
  rw [exec_lda s ho hs, opLda_eq, withOperand_ok _ h, finish_ok]
  exact congrArg _ (setAcc_setNZ_wM { s with events := t.events } m)

theorem exec_ldx_result (ho : i.op = .ldx) (h : readSrc s.wX src s = .ok (m, t)) :
    exec i s = .next (if s.fX then { s.xResult8 (loByte m) with events := t.events }
      else { s.xResult16 m with events := t.events }) := by
  rw [exec_ldx s ho hs, opLdx_eq, withOperand_ok _ h, finish_ok]
  exact congrArg _ (setX_setNZ_wX { s with events := t.events } m)

theorem exec_ldy_result (ho : i.op = .ldy) (h : readSrc s.wX src s = .ok (m, t)) :
    exec i s = .next (if s.fX then { s.yResult8 (loByte m) with events := t.events }
      else { s.yResult16 m with events := t.events }) := by
  rw [exec_ldy s ho hs, opLdy_eq, withOperand_ok _ h, finish_ok]
  exact congrArg _ (setY_setNZ_wX { s with events := t.events } m)

theorem exec_load_w8 (h : readSrc .w8 src s = .ok (m, t)) :
    (i.op = .lda → s.fM = true → exec i s = .next { s.accResult8 (loByte m) with events := t.events }) ∧
    (i.op = .ldx → s.fX = true → exec i s = .next { s.xResult8 (loByte m) with events := t.events }) ∧
    (i.op = .ldy → s.fX = true → exec i s = .next { s.yResult8 (loByte m) with events := t.events }) := by
  refine ⟨fun ho hM => ?_, fun ho hX => ?_, fun ho hX => ?_⟩
  · rw [exec_lda_result hs ho (wM_of_fM hM ▸ h), if_pos hM]
  · rw [exec_ldx_result hs ho (wX_of_fX hX ▸ h), if_pos hX]
  · rw [exec_ldy_result hs ho (wX_of_fX hX ▸ h), if_pos hX]

theorem exec_load_w16 (h : readSrc .w16 src s = .ok (m, t)) :
    (i.op = .lda → s.fM = false → exec i s = .next { s.accResult16 m with events := t.events }) ∧
    (i.op = .ldx → s.fX = false → exec i s = .next { s.xResult16 m with events := t.events }) ∧
    (i.op = .ldy → s.fX = false → exec i s = .next { s.yResult16 m with events := t.events }) := by
  refine ⟨fun ho hM => ?_, fun ho hX => ?_, fun ho hX => ?_⟩
  · rw [exec_lda_result hs ho (wM_of_not_fM hM ▸ h), if_neg (ne_true_of_eq_false hM)]
  · rw [exec_ldx_result hs ho (wX_of_not_fX hX ▸ h), if_neg (ne_true_of_eq_false hX)]
  · rw [exec_ldy_result hs ho (wX_of_not_fX hX ▸ h), if_neg (ne_true_of_eq_false hX)]

/-- A load faults as its operand read does, at the width of its register (R270, R271, R272). -/
theorem exec_load_fault (f : Fault) :
    (i.op = .lda → readSrc s.wM src s = .error f → exec i s = .fault f) ∧
    (i.op = .ldx ∨ i.op = .ldy → readSrc s.wX src s = .error f → exec i s = .fault f) := by
  refine ⟨fun ho h => ?_, fun ho h => ?_⟩
  · rw [exec_lda s ho hs, opLda_eq, withOperand_error _ h, finish_error]
  · obtain ho | ho := ho
    · rw [exec_ldx s ho hs, opLdx_eq, withOperand_error _ h, finish_error]
    · rw [exec_ldy s ho hs, opLdy_eq, withOperand_error _ h, finish_error]

end Loads

/-! ## STA, STX, STY and STZ -/

/-- What an operation stores in a state, and at which width (R273, R274, R275, R276). -/
def Stores (op : Op) (s : State) (w : Width) (v : Word) : Prop :=
  op = .sta ∧ w = s.wM ∧ v = s.acc s.wM ∨ op = .stx ∧ w = s.wX ∧ v = cut s.wX s.x ∨
    op = .sty ∧ w = s.wX ∧ v = cut s.wX s.y ∨ op = .stz ∧ w = s.wM ∧ v = 0

/-- The four stores are one store to memory, of the value and at the width of each. -/
theorem exec_store {i : Instr} {m : MemMode} {s : State} {w : Width} {v : Word} (hm : i.operand = .mem m)
    (h : Stores i.op s w v) : exec i s = finish (storeMem w m v s) := by
  obtain ⟨ho, rfl, rfl⟩ | ⟨ho, rfl, rfl⟩ | ⟨ho, rfl, rfl⟩ | ⟨ho, rfl, rfl⟩ := h
  · exact exec_sta s ho hm
  · exact exec_stx s ho hm
  · exact exec_sty s ho hm
  · exact exec_stz s ho hm

theorem storeMem_of_effAddr {m : MemMode} {s s1 : State} {ea : Word} (w : Width) (v : Word)
    (h : effAddr m s = .ok (ea, s1)) : storeMem w m v s = memWriteW w ea v s1 := by
  rw [storeMem, h, ok_bind]

theorem storeMem_error {m : MemMode} {s : State} {f : Fault} (w : Width) (v : Word)
    (h : effAddr m s = .error f) : storeMem w m v s = .error f := by
  rw [storeMem, h]
  rfl

theorem ReadOnly.mem_eq {s t : State} (h : ReadOnly s t) : t.mem = s.mem := by rw [h]

section StoredBytes

variable {w : Width} {ea v : Word} {s s1 t : State} (hr : ReadOnly s s1) (h : memWriteW w ea v s1 = .ok t)
include hr h

/-- A store after the reads of its pointer leaves every byte but its own. -/
theorem sameBytesBut_of_store (hwf : Memory.wf s.mem = true) : SameBytesBut w ea s t := by
  intro b hb hb'
  rw [← hr.mem_eq] at hwf ⊢
  exact memWriteW_other h hwf b hb hb'

/-- A store after the reads of its pointer leaves the low byte at an address of RAM. -/
theorem read_low_of_store (hwf : Memory.wf s.mem = true) (hram : s.busTarget ea = .ram) :
    Memory.read t.mem ea.toNat = loByte v := by
  rw [← hr.mem_eq] at hwf
  rw [← hr.sameBus.busTarget] at hram
  exact memWriteW_low h hwf hram

/-- A 16-bit store after the reads of its pointer leaves the high byte at the next address, where it is one of RAM. -/
theorem read_high_of_store (hwf : Memory.wf s.mem = true) (hw : w = .w16) (hram : s.busTarget (ea + 1) = .ram) :
    Memory.read t.mem (ea + 1).toNat = hiByte v := by
  subst hw
  rw [← hr.mem_eq] at hwf
  rw [← hr.sameBus.busTarget] at hram
  exact memWriteW_high h hwf hram

end StoredBytes

/-! ## The obligations -/

/-- Settles O24: each load reads its operand and puts it, with its N and Z, in its register at the width that fM or fX
selects. -/
theorem loadResults : Obligations.LoadResults := by
  unfold Obligations.LoadResults
  refine ⟨rowsOf_lda, rowsOf_ldx, rowsOf_ldy, fun i src s hs => ⟨?_, ?_, ?_⟩⟩
  · exact fun m t h => exec_load_w8 hs h
  · exact fun m t h => exec_load_w16 hs h
  · exact fun f => exec_load_fault hs f

/-- Settles O25: each store is `storeMem`, whose address changes at most the record of interactions and whose write changes
its own bytes of memory besides. -/
theorem storeResults : Obligations.StoreResults := by
  unfold Obligations.StoreResults
  refine ⟨op_eq_sta_iff, rowsOf_stx, rowsOf_sty, rowsOf_stz, fun i m s w v hm hop => ?_⟩
  have hexec : exec i s = finish (storeMem w m v s) := exec_store hm hop
  refine ⟨fun f h => ?_, fun ea s1 hea => ⟨fun f h => ?_, fun t h => ?_⟩⟩
  · rw [hexec, storeMem_error w v h, finish_error]
  · rw [hexec, storeMem_of_effAddr w v hea, h, finish_error]
  · have hstore : storeMem w m v s = .ok t := by rw [storeMem_of_effAddr w v hea, h]
    have hr : ReadOnly s s1 := effAddr_readOnly hea
    refine ⟨by rw [hexec, hstore, finish_ok], (storeMem_busOnly hstore).1, fun hwf => ⟨?_, ?_, ?_⟩⟩
    · exact sameBytesBut_of_store hr h hwf
    · exact read_low_of_store hr h hwf
    · exact read_high_of_store hr h hwf

end Sys2Proof.Machine
end

section
/-! PROOFS. The decoder and the encoder (30_encoding.md): each is the other's inverse, every opcode byte is decoded, and
the lengths follow the widths for the variable-width immediates alone. -/

namespace Sys2Proof.Laws

/-- The round trip of every instruction, by its constructor. -/
theorem roundTrip : ∀ i : Instr, RoundTrip.Statement i
  | .brk => RoundTrip.brk | .oraIzpX z => RoundTrip.oraIzpX z | .nxt => RoundTrip.nxt | .oraSr o => RoundTrip.oraSr o
  | .tsbZp z => RoundTrip.tsbZp z | .oraZp z => RoundTrip.oraZp z | .aslZp z => RoundTrip.aslZp z
  | .oraRr o => RoundTrip.oraRr o | .php => RoundTrip.php | .oraImmM v => RoundTrip.oraImmM v
  | .aslAcc => RoundTrip.aslAcc | .rhi => RoundTrip.rhi | .tsbAbs w => RoundTrip.tsbAbs w
  | .oraAbs w => RoundTrip.oraAbs w | .aslAbs w => RoundTrip.aslAbs w | .mulZp z => RoundTrip.mulZp z
  | .bpl b => RoundTrip.bpl b | .oraIzpY z => RoundTrip.oraIzpY z | .oraIzp z => RoundTrip.oraIzp z
  | .oraIsrY o => RoundTrip.oraIsrY o | .trbZp z => RoundTrip.trbZp z | .oraZpX z => RoundTrip.oraZpX z
  | .aslZpX z => RoundTrip.aslZpX z | .oraIrrY o => RoundTrip.oraIrrY o | .clc => RoundTrip.clc
  | .oraAbsY w => RoundTrip.oraAbsY w | .incAcc => RoundTrip.incAcc | .rhx => RoundTrip.rhx
  | .trbAbs w => RoundTrip.trbAbs w | .oraAbsX w => RoundTrip.oraAbsX w | .aslAbsX w => RoundTrip.aslAbsX w
  | .mulZpX z => RoundTrip.mulZpX z | .jsrAbs w => RoundTrip.jsrAbs w | .andIzpX z => RoundTrip.andIzpX z
  | .ent w => RoundTrip.ent w | .andSr o => RoundTrip.andSr o | .bitZp z => RoundTrip.bitZp z
  | .andZp z => RoundTrip.andZp z | .rolZp z => RoundTrip.rolZp z | .andRr o => RoundTrip.andRr o
  | .plp => RoundTrip.plp | .andImmM v => RoundTrip.andImmM v | .rolAcc => RoundTrip.rolAcc | .rli => RoundTrip.rli
  | .bitAbs w => RoundTrip.bitAbs w | .andAbs w => RoundTrip.andAbs w | .rolAbs w => RoundTrip.rolAbs w
  | .mulAbs w => RoundTrip.mulAbs w | .bmi b => RoundTrip.bmi b | .andIzpY z => RoundTrip.andIzpY z
  | .andIzp z => RoundTrip.andIzp z | .andIsrY o => RoundTrip.andIsrY o | .bitZpX z => RoundTrip.bitZpX z
  | .andZpX z => RoundTrip.andZpX z | .rolZpX z => RoundTrip.rolZpX z | .andIrrY o => RoundTrip.andIrrY o
  | .sec => RoundTrip.sec | .andAbsY w => RoundTrip.andAbsY w | .decAcc => RoundTrip.decAcc | .rlx => RoundTrip.rlx
  | .bitAbsX w => RoundTrip.bitAbsX w | .andAbsX w => RoundTrip.andAbsX w | .rolAbsX w => RoundTrip.rolAbsX w
  | .mulAbsX w => RoundTrip.mulAbsX w | .rti => RoundTrip.rti | .eorIzpX z => RoundTrip.eorIzpX z
  | .nxa => RoundTrip.nxa | .eorSr o => RoundTrip.eorSr o | .rea w => RoundTrip.rea w | .eorZp z => RoundTrip.eorZp z
  | .lsrZp z => RoundTrip.lsrZp z | .eorRr o => RoundTrip.eorRr o | .pha => RoundTrip.pha
  | .eorImmM v => RoundTrip.eorImmM v | .lsrAcc => RoundTrip.lsrAcc | .rha => RoundTrip.rha
  | .jmpAbs w => RoundTrip.jmpAbs w | .eorAbs w => RoundTrip.eorAbs w | .lsrAbs w => RoundTrip.lsrAbs w
  | .divZp z => RoundTrip.divZp z | .bvc b => RoundTrip.bvc b | .eorIzpY z => RoundTrip.eorIzpY z
  | .eorIzp z => RoundTrip.eorIzp z | .eorIsrY o => RoundTrip.eorIsrY o | .rei z => RoundTrip.rei z
  | .eorZpX z => RoundTrip.eorZpX z | .lsrZpX z => RoundTrip.lsrZpX z | .eorIrrY o => RoundTrip.eorIrrY o
  | .cli => RoundTrip.cli | .eorAbsY w => RoundTrip.eorAbsY w | .phy => RoundTrip.phy | .rhy => RoundTrip.rhy
  | .txi => RoundTrip.txi | .eorAbsX w => RoundTrip.eorAbsX w | .lsrAbsX w => RoundTrip.lsrAbsX w
  | .divZpX z => RoundTrip.divZpX z | .rts => RoundTrip.rts | .adcIzpX z => RoundTrip.adcIzpX z
  | .per w => RoundTrip.per w | .adcSr o => RoundTrip.adcSr o | .stzZp z => RoundTrip.stzZp z
  | .adcZp z => RoundTrip.adcZp z | .rorZp z => RoundTrip.rorZp z | .adcRr o => RoundTrip.adcRr o
  | .pla => RoundTrip.pla | .adcImmM v => RoundTrip.adcImmM v | .rorAcc => RoundTrip.rorAcc | .rla => RoundTrip.rla
  | .jmpIabs w => RoundTrip.jmpIabs w | .adcAbs w => RoundTrip.adcAbs w | .rorAbs w => RoundTrip.rorAbs w
  | .divAbs w => RoundTrip.divAbs w | .bvs b => RoundTrip.bvs b | .adcIzpY z => RoundTrip.adcIzpY z
  | .adcIzp z => RoundTrip.adcIzp z | .adcIsrY o => RoundTrip.adcIsrY o | .stzZpX z => RoundTrip.stzZpX z
  | .adcZpX z => RoundTrip.adcZpX z | .rorZpX z => RoundTrip.rorZpX z | .adcIrrY o => RoundTrip.adcIrrY o
  | .sei => RoundTrip.sei | .adcAbsY w => RoundTrip.adcAbsY w | .ply => RoundTrip.ply | .rly => RoundTrip.rly
  | .jmpIabsX w => RoundTrip.jmpIabsX w | .adcAbsX w => RoundTrip.adcAbsX w | .rorAbsX w => RoundTrip.rorAbsX w
  | .divAbsX w => RoundTrip.divAbsX w | .bra b => RoundTrip.bra b | .staIzpX z => RoundTrip.staIzpX z
  | .rer w => RoundTrip.rer w | .staSr o => RoundTrip.staSr o | .styZp z => RoundTrip.styZp z
  | .staZp z => RoundTrip.staZp z | .stxZp z => RoundTrip.stxZp z | .staRr o => RoundTrip.staRr o
  | .dey => RoundTrip.dey | .bitImmM v => RoundTrip.bitImmM v | .txa => RoundTrip.txa | .txr => RoundTrip.txr
  | .styAbs w => RoundTrip.styAbs w | .staAbs w => RoundTrip.staAbs w | .stxAbs w => RoundTrip.stxAbs w
  | .zea => RoundTrip.zea | .bcc b => RoundTrip.bcc b | .staIzpY z => RoundTrip.staIzpY z
  | .staIzp z => RoundTrip.staIzp z | .staIsrY o => RoundTrip.staIsrY o | .styZpX z => RoundTrip.styZpX z
  | .staZpX z => RoundTrip.staZpX z | .stxZpY z => RoundTrip.stxZpY z | .staIrrY o => RoundTrip.staIrrY o
  | .tya => RoundTrip.tya | .staAbsY w => RoundTrip.staAbsY w | .txs => RoundTrip.txs | .txy => RoundTrip.txy
  | .stzAbs w => RoundTrip.stzAbs w | .staAbsX w => RoundTrip.staAbsX w | .stzAbsX w => RoundTrip.stzAbsX w
  | .sea => RoundTrip.sea | .ldyImmX v => RoundTrip.ldyImmX v | .ldaIzpX z => RoundTrip.ldaIzpX z
  | .ldxImmX v => RoundTrip.ldxImmX v | .ldaSr o => RoundTrip.ldaSr o | .ldyZp z => RoundTrip.ldyZp z
  | .ldaZp z => RoundTrip.ldaZp z | .ldxZp z => RoundTrip.ldxZp z | .ldaRr o => RoundTrip.ldaRr o
  | .tay => RoundTrip.tay | .ldaImmM v => RoundTrip.ldaImmM v | .tax => RoundTrip.tax | .trx => RoundTrip.trx
  | .ldyAbs w => RoundTrip.ldyAbs w | .ldaAbs w => RoundTrip.ldaAbs w | .ldxAbs w => RoundTrip.ldxAbs w
  | .tda => RoundTrip.tda | .bcs b => RoundTrip.bcs b | .ldaIzpY z => RoundTrip.ldaIzpY z
  | .ldaIzp z => RoundTrip.ldaIzp z | .ldaIsrY o => RoundTrip.ldaIsrY o | .ldyZpX z => RoundTrip.ldyZpX z
  | .ldaZpX z => RoundTrip.ldaZpX z | .ldxZpY z => RoundTrip.ldxZpY z | .ldaIrrY o => RoundTrip.ldaIrrY o
  | .clv => RoundTrip.clv | .ldaAbsY w => RoundTrip.ldaAbsY w | .tsx => RoundTrip.tsx | .tyx => RoundTrip.tyx
  | .ldyAbsX w => RoundTrip.ldyAbsX w | .ldaAbsX w => RoundTrip.ldaAbsX w | .ldxAbsY w => RoundTrip.ldxAbsY w
  | .tad => RoundTrip.tad | .cpyImmX v => RoundTrip.cpyImmX v | .cmpIzpX z => RoundTrip.cmpIzpX z
  | .rep k => RoundTrip.rep k | .cmpSr o => RoundTrip.cmpSr o | .cpyZp z => RoundTrip.cpyZp z
  | .cmpZp z => RoundTrip.cmpZp z | .decZp z => RoundTrip.decZp z | .cmpRr o => RoundTrip.cmpRr o
  | .iny => RoundTrip.iny | .cmpImmM v => RoundTrip.cmpImmM v | .dex => RoundTrip.dex | .wai => RoundTrip.wai
  | .cpyAbs w => RoundTrip.cpyAbs w | .cmpAbs w => RoundTrip.cmpAbs w | .decAbs w => RoundTrip.decAbs w
  | .pld => RoundTrip.pld | .bne b => RoundTrip.bne b | .cmpIzpY z => RoundTrip.cmpIzpY z
  | .cmpIzp z => RoundTrip.cmpIzp z | .cmpIsrY o => RoundTrip.cmpIsrY o | .pei z => RoundTrip.pei z
  | .cmpZpX z => RoundTrip.cmpZpX z | .decZpX z => RoundTrip.decZpX z | .cmpIrrY o => RoundTrip.cmpIrrY o
  | .cld => RoundTrip.cld | .cmpAbsY w => RoundTrip.cmpAbsY w | .phx => RoundTrip.phx | .stp => RoundTrip.stp
  | .tix => RoundTrip.tix | .cmpAbsX w => RoundTrip.cmpAbsX w | .decAbsX w => RoundTrip.decAbsX w
  | .phd => RoundTrip.phd | .cpxImmX v => RoundTrip.cpxImmX v | .sbcIzpX z => RoundTrip.sbcIzpX z
  | .sep k => RoundTrip.sep k | .sbcSr o => RoundTrip.sbcSr o | .cpxZp z => RoundTrip.cpxZp z
  | .sbcZp z => RoundTrip.sbcZp z | .incZp z => RoundTrip.incZp z | .sbcRr o => RoundTrip.sbcRr o
  | .inx => RoundTrip.inx | .sbcImmM v => RoundTrip.sbcImmM v | .nop => RoundTrip.nop | .xba => RoundTrip.xba
  | .cpxAbs w => RoundTrip.cpxAbs w | .sbcAbs w => RoundTrip.sbcAbs w | .incAbs w => RoundTrip.incAbs w
  | .mmu k => RoundTrip.mmu k | .beq b => RoundTrip.beq b | .sbcIzpY z => RoundTrip.sbcIzpY z
  | .sbcIzp z => RoundTrip.sbcIzp z | .sbcIsrY o => RoundTrip.sbcIsrY o | .pea w => RoundTrip.pea w
  | .sbcZpX z => RoundTrip.sbcZpX z | .incZpX z => RoundTrip.incZpX z | .sbcIrrY o => RoundTrip.sbcIrrY o
  | .sed => RoundTrip.sed | .sbcAbsY w => RoundTrip.sbcAbsY w | .plx => RoundTrip.plx | .xce => RoundTrip.xce
  | .jsrIabsX w => RoundTrip.jsrIabsX w | .sbcAbsX w => RoundTrip.sbcAbsX w | .incAbsX w => RoundTrip.incAbsX w
  | .illegal => RoundTrip.illegal

end Sys2Proof.Laws

namespace Sys2Proof

theorem decodeIn_of_not_illegal {illegal : List Byte} {opcode : Byte} (h : opcode ∉ illegal) (wM wX : Width)
    (bytes : List Byte) : decodeIn illegal wM wX (opcode :: bytes) = decode wM wX (opcode :: bytes) := by
  rw [decodeIn, romOpcode, if_neg h]

theorem decodeIn_of_illegal {illegal : List Byte} {opcode : Byte} (h : opcode ∈ illegal) (wM wX : Width)
    (rest : List Byte) : decodeIn illegal wM wX (opcode :: rest) = .ok (.illegal, rest) := by
  rw [decodeIn, romOpcode, if_pos h]
  rfl

/-- Settles O1: the round trip of the encoding alone, with bytes after it. -/
theorem decodeOfEncodeIsSame : Obligations.DecodeOfEncodeIsSame := by
  unfold Obligations.DecodeOfEncodeIsSame
  intro wM wX i rest hwf
  have hdecode : decode wM wX (encode wM wX i ++ rest) = .ok (i, rest) := decode_append (Laws.roundTrip i wM wX hwf) rest
  exact ⟨hdecode, fun illegal hi => (decodeIn_of_not_illegal hi wM wX _).trans hdecode⟩

/-! ## What the decoder consumes -/

/-- A decoding consumes an opcode byte and as many of the two after it as its length says. -/
theorem decode_eq_ok {wM wX : Width} {bytes rest : List Byte} {i : Instr} (h : decode wM wX bytes = .ok (i, rest)) :
    ∃ opcode b1 b2, i = instrOf wM wX opcode b1 b2 ∧
      bytes = [opcode, b1, b2].take (opcodeLength wM wX opcode) ++ rest := by
  unfold decode at h
  split at h
  · cases h
  next opcode bytes =>
    split at h <;> cases h
    next hlength => exact ⟨opcode, 0, 0, rfl, by rw [hlength]; rfl⟩
    next b1 hlength => exact ⟨opcode, b1, 0, rfl, by rw [hlength]; rfl⟩
    next b1 b2 hlength => exact ⟨opcode, b1, b2, rfl, by rw [hlength]; rfl⟩

/-- Settles O2: the encoding of an instruction of the opcode map is the bytes it was made of. -/
theorem decodedBytesAreTheEncoding : Obligations.DecodedBytesAreTheEncoding := by
  unfold Obligations.DecodedBytesAreTheEncoding
  intro wM wX bytes rest i h
  obtain ⟨opcode, b1, b2, rfl, rfl⟩ := decode_eq_ok h
  exact ⟨by rw [encode_instrOf], wf_instrOf wM wX b1 b2 opcode⟩

/-! ## Lengths -/

theorem length_bounds (wM wX : Width) (i : Instr) : 1 ≤ i.length wM wX ∧ i.length wM wX ≤ 3 := by
  have hoperand : ∀ o : Operand, o.operandBytes wM wX ≤ 2 := by
    intro o
    cases o with
    | mem m => cases m <;> simp [Operand.operandBytes, MemMode.operandBytes]
    | immM v => cases wM <;> simp [Operand.operandBytes, Width.bytes]
    | immX v => cases wX <;> simp [Operand.operandBytes, Width.bytes]
    | _ => simp [Operand.operandBytes]
  exact ⟨Nat.le_add_right .., Nat.add_le_add_left (hoperand i.operand) 1⟩

/-- The mode of an instruction is an immediate of width `wM` for eight opcodes, and of width `wX` for four. -/
theorem mode_immediate_iff (i : Instr) :
    (i.operand.mode = .immM ↔ i.opcode ∈ [(0x09 : Byte), 0x29, 0x49, 0x69, 0xE9, 0xC9, 0xA9, 0x89]) ∧
    (i.operand.mode = .immX ↔ i.opcode ∈ [(0xA2 : Byte), 0xA0, 0xE0, 0xC0]) := by
  have hmap : ∀ hi < 16, ∀ lo < 16, let b : Byte := BitVec.ofNat 8 (16 * hi + lo)
      ((instrOf .w8 .w8 b 0 0).operand.mode = .immM ↔ b ∈ [(0x09 : Byte), 0x29, 0x49, 0x69, 0xE9, 0xC9, 0xA9, 0x89]) ∧
      ((instrOf .w8 .w8 b 0 0).operand.mode = .immX ↔ b ∈ [(0xA2 : Byte), 0xA0, 0xE0, 0xC0]) := by decide
  have hlt := i.opcode.isLt
  have hcell := hmap (i.opcode.toNat / 16) (by omega) (i.opcode.toNat % 16) (by omega)
  simp only [Nat.div_add_mod, BitVec.ofNat_toNat, BitVec.setWidth_eq] at hcell
  rwa [(op_mode_of_opcode i).2] at hcell

/-- The operand bytes of a mode, from those at width 8. -/
theorem operandBytes_eq (wM wX : Width) (o : Operand) : o.operandBytes wM wX = o.operandBytes .w8 .w8
    + (if wM = .w16 ∧ o.mode = .immM then 1 else 0) + (if wX = .w16 ∧ o.mode = .immX then 1 else 0) := by
  cases o with
  | mem m => cases m <;> simp [Operand.operandBytes, Operand.mode, MemMode.mode]
  | immM v => cases wM <;> simp [Operand.operandBytes, Operand.mode, Width.bytes]
  | immX v => cases wX <;> simp [Operand.operandBytes, Operand.mode, Width.bytes]
  | _ => simp [Operand.operandBytes, Operand.mode]

/-- Settles O4: the length is one byte more than the operand's, whose mode the opcode tells. -/
theorem lengthFollowsWidths : Obligations.LengthFollowsWidths := by
  unfold Obligations.LengthFollowsWidths
  intro i
  obtain ⟨hM, hX⟩ := mode_immediate_iff i
  refine ⟨fun wM wX => ⟨(length_bounds wM wX i).1, (length_bounds wM wX i).2, encode_length wM wX i⟩, fun wM wX => ?_⟩
  rw [Instr.length, Instr.length, operandBytes_eq]
  simp only [hM, hX, Nat.add_assoc]

/-! ## Every opcode -/

/-- Settles O3: a length of one, two or three bytes is always had, and the opcode of what is decoded is the byte's. -/
theorem everyOpcodeDecodes : Obligations.EveryOpcodeDecodes := by
  unfold Obligations.EveryOpcodeDecodes
  refine ⟨fun wM wX opcode b1 b2 rest => ?_, fun i => ⟨fun h => ?_, ?_⟩, fun illegal wM wX opcode rest h =>
    decodeIn_of_illegal h wM wX rest⟩
  · obtain ⟨hlow, hhigh⟩ := length_bounds wM wX (instrOf wM wX opcode 0 0)
    simp only [decode]
    split
    · exact ⟨_, _, rfl, opcode_instrOf ..⟩
    · exact ⟨_, _, rfl, opcode_instrOf ..⟩
    · exact ⟨_, _, rfl, opcode_instrOf ..⟩
    next h1 h2 h3 =>
      have hlength : opcodeLength wM wX opcode = 1 ∨ opcodeLength wM wX opcode = 2 ∨ opcodeLength wM wX opcode = 3 := by
        unfold opcodeLength; omega
      obtain hl | hl | hl := hlength
      · exact (h1 hl).elim
      · exact (h2 _ _ hl rfl).elim
      · exact (h3 _ _ _ hl rfl).elim
  · cases i <;> first | rfl | exact absurd h (by simp [Instr.opcode])
  · rintro rfl
    rfl

/-- Settles O5: each word is decoded by evaluation. -/
theorem sampleWordsDecode : Obligations.SampleWordsDecode := by
  unfold Obligations.SampleWordsDecode
  exact ⟨rfl, rfl, rfl, rfl, rfl, rfl, rfl, rfl, rfl, rfl, rfl⟩

end Sys2Proof
end

section
/-! PROOFS. Who writes what: the parts of the state with the operations that write them (10_state.md, 20_memory.md
section 3), and one lemma an operation that says how it can end and what it leaves. -/

namespace Sys2Proof

@[simp] theorem hiByte_zext (b : Byte) : hiByte (zext b) = 0 := by
  rw [← Machine.mkWord_zext, hiByte_mkWord]

end Sys2Proof

namespace Sys2Proof.Machine

/-! ## The parts of the state and their writers -/

/-- The parts of the state that the rules let some instructions write and others not (10_state.md R30 to R47). -/
inductive Part where
  | acc | sp | r | i | d | fC | fV | fI | fD | fB | fE | widths | config | trap | waiting | halted

/-- A part is the same in two states; `config` is the vectors and the RedBus registers, which MMU writes. -/
def Part.Kept : Part → State → State → Prop
  | .acc, s, t => t.al = s.al ∧ t.ah = s.ah
  | .sp, s, t => t.sp = s.sp
  | .r, s, t => t.r = s.r
  | .i, s, t => t.i = s.i
  | .d, s, t => t.d = s.d
  | .fC, s, t => t.fC = s.fC
  | .fV, s, t => t.fV = s.fV
  | .fI, s, t => t.fI = s.fI
  | .fD, s, t => t.fD = s.fD
  | .fB, s, t => t.fB = s.fB
  | .fE, s, t => t.fE = s.fE
  | .widths, s, t => t.fM = s.fM ∧ t.fX = s.fX
  | .config, s, t => t.por = s.por ∧ t.brkv = s.brkv ∧ t.rbSlot = s.rbSlot ∧ t.rbWindow = s.rbWindow ∧
      t.rbEnabled = s.rbEnabled ∧ t.rbAuxWin = s.rbAuxWin ∧ t.rbAuxEn = s.rbAuxEn
  | .trap, s, t => t.trap = s.trap
  | .waiting, s, t => t.waiting = s.waiting
  | .halted, s, t => t.halted = s.halted

/-- The operations whose rule writes a part. -/
def Part.writers : Part → List Op
  | .acc => [.ora, .and, .eor, .adc, .sbc, .asl, .lsr, .rol, .ror, .inc, .dec, .lda, .pla, .rla, .nxa, .txa, .tya, .xba,
      .mul, .div, .tda, .mmu]
  | .sp => [.pha, .pla, .phx, .plx, .phy, .ply, .php, .plp, .phd, .pld, .pea, .pei, .per, .jsr, .rts, .rti, .brk, .txs]
  | .r => [.rha, .rla, .rhx, .rlx, .rhy, .rly, .rhi, .rli, .rea, .rei, .rer, .ent, .txr]
  | .i => [.txi, .rli, .ent, .nxt, .nxa]
  | .d => [.mul, .div, .pld, .zea, .sea, .tad]
  | .fC => [.adc, .sbc, .cmp, .cpx, .cpy, .asl, .lsr, .rol, .ror, .clc, .sec, .xce, .rep, .sep, .plp, .rti]
  | .fV => [.adc, .sbc, .bit, .clv, .div, .rep, .sep, .plp, .rti]
  | .fI => [.sei, .cli, .rep, .sep, .plp, .rti, .brk]
  | .fD => [.sed, .cld, .rep, .sep, .plp, .rti, .brk]
  | .fB => [.brk, .plp, .rti]
  | .fE => [.xce]
  | .widths => [.rep, .sep, .plp, .rti, .xce]
  | .config => [.mmu]
  | .trap => [.illegal]
  | .waiting => [.wai]
  | .halted => [.stp]

/-- What no instruction writes: the lines, the counters, the bindings and the platform (10_state.md R46, R47). -/
def SameMachine (s t : State) : Prop :=
  t.irq = s.irq ∧ t.nmi = s.nmi ∧ t.steps = s.steps ∧ t.tokens = s.tokens ∧ t.rbBind = s.rbBind ∧
    t.running = s.running ∧ t.logInstalled = s.logInstalled ∧ t.devices = s.devices ∧ t.params = s.params ∧
    t.wasReset = s.wasReset

/-- What an operation may change: the parts it is a writer of, and of the rest the PC, the index registers, fN, fZ, memory
and the record of interactions, the mode staying legal and memory canonical. -/
structure Changes (op : Op) (s t : State) : Prop where
  kept : ∀ p : Part, op ∉ p.writers → p.Kept s t
  machine : SameMachine s t
  mode : s.ModeInv → t.ModeInv
  memory : Memory.wf s.mem = true → Memory.wf t.mem = true

theorem Part.Kept.refl (p : Part) (s : State) : p.Kept s s := by
  cases p <;> simp [Part.Kept]

theorem Part.Kept.trans {p : Part} {s t u : State} (h : p.Kept s t) (h' : p.Kept t u) : p.Kept s u := by
  cases p <;> simp_all [Part.Kept]

theorem SameMachine.trans {s t u : State} (h : SameMachine s t) (h' : SameMachine t u) : SameMachine s u := by
  simp_all [SameMachine]

theorem SameMachine.refl (s : State) : SameMachine s s := by simp [SameMachine]

namespace Changes

variable {op : Op} {s t u : State}

theorem refl (op : Op) (s : State) : Changes op s s := ⟨fun p _ => .refl p s, .refl s, id, id⟩

theorem trans (h : Changes op s t) (h' : Changes op t u) : Changes op s u where
  kept p hp := (h.kept p hp).trans (h'.kept p hp)
  machine := h.machine.trans h'.machine
  mode hs := h'.mode (h.mode hs)
  memory hs := h'.memory (h.memory hs)

/-- Only MMU moves the RedBus window, so any other operation leaves the bus routing its transactions alike. -/
theorem sameBus (h : Changes op s t) (hop : op ≠ .mmu) : SameBus s t := by
  have hconfig : Part.config.Kept s t := h.kept .config (by simpa [Part.writers] using hop)
  obtain ⟨-, -, -, hwindow, -⟩ := hconfig
  obtain ⟨-, -, -, -, -, -, -, hdevices, -⟩ := h.machine
  exact ⟨hdevices, hwindow⟩

end Changes

/-- A state with every part that an operation does not write put back, and what no instruction writes. -/
def State.restored (t : State) (op : Op) (s : State) : State :=
  { t with
    al := if op ∈ Part.acc.writers then t.al else s.al, ah := if op ∈ Part.acc.writers then t.ah else s.ah
    sp := if op ∈ Part.sp.writers then t.sp else s.sp, r := if op ∈ Part.r.writers then t.r else s.r
    i := if op ∈ Part.i.writers then t.i else s.i, d := if op ∈ Part.d.writers then t.d else s.d
    fC := if op ∈ Part.fC.writers then t.fC else s.fC, fV := if op ∈ Part.fV.writers then t.fV else s.fV
    fI := if op ∈ Part.fI.writers then t.fI else s.fI, fD := if op ∈ Part.fD.writers then t.fD else s.fD
    fB := if op ∈ Part.fB.writers then t.fB else s.fB, fE := if op ∈ Part.fE.writers then t.fE else s.fE
    fM := if op ∈ Part.widths.writers then t.fM else s.fM, fX := if op ∈ Part.widths.writers then t.fX else s.fX
    por := if op ∈ Part.config.writers then t.por else s.por, brkv := if op ∈ Part.config.writers then t.brkv else s.brkv
    rbSlot := if op ∈ Part.config.writers then t.rbSlot else s.rbSlot
    rbWindow := if op ∈ Part.config.writers then t.rbWindow else s.rbWindow
    rbEnabled := if op ∈ Part.config.writers then t.rbEnabled else s.rbEnabled
    rbAuxWin := if op ∈ Part.config.writers then t.rbAuxWin else s.rbAuxWin
    rbAuxEn := if op ∈ Part.config.writers then t.rbAuxEn else s.rbAuxEn
    trap := if op ∈ Part.trap.writers then t.trap else s.trap
    waiting := if op ∈ Part.waiting.writers then t.waiting else s.waiting
    halted := if op ∈ Part.halted.writers then t.halted else s.halted
    irq := s.irq, nmi := s.nmi, steps := s.steps, tokens := s.tokens, rbBind := s.rbBind, running := s.running
    logInstalled := s.logInstalled, devices := s.devices, params := s.params, wasReset := s.wasReset }

/-- An update is a change of an operation if putting back what the operation does not write makes no difference. -/
theorem Changes.of_update {op : Op} {s t : State} (h : t = t.restored op s) (mode : s.ModeInv → t.ModeInv)
    (memory : Memory.wf s.mem = true → Memory.wf t.mem = true) : Changes op s t where
  kept p hp := by
    rw [h]
    cases p <;> simp only [Part.Kept, State.restored, if_neg hp, and_self]
  machine := by
    rw [h]
    exact ⟨rfl, rfl, rfl, rfl, rfl, rfl, rfl, rfl, rfl, rfl⟩
  mode := mode
  memory := memory

/-! ## The updates that operations share -/

section Updates

variable {op : Op} {s t : State}

theorem BusOnly.changes (op : Op) (h : BusOnly s t) : Changes op s t := by
  obtain ⟨heq, hmem⟩ := h
  refine ⟨fun p _ => ?_, ?_, ?_, hmem⟩
  · rw [heq]; cases p <;> simp [Part.Kept]
  · rw [heq]; exact .refl s
  · rw [heq]; exact id

theorem ReadOnly.changes (op : Op) (h : ReadOnly s t) : Changes op s t := h.busOnly.changes op

theorem changes_setNZ (op : Op) (s : State) (w : Width) (v : Word) : Changes op s (s.setNZ w v) where
  kept p _ := by cases p <;> simp [Part.Kept]
  machine := .refl s
  mode := id
  memory := id

theorem changes_pc (op : Op) (s : State) (a : Word) : Changes op s { s with pc := a } where
  kept p _ := by cases p <;> simp [Part.Kept]
  machine := .refl s
  mode := id
  memory := id

theorem changes_setAcc (h : op ∈ Part.acc.writers) (s : State) (w : Width) (v : Word) : Changes op s (s.setAcc w v) where
  kept p hp := by
    cases p with
    | acc => exact absurd h hp
    | _ => simp [Part.Kept]
  machine := by simp [SameMachine]
  mode := by simp [State.ModeInv]
  memory := by simp

/-- An index register is written at the index width, so at width 8 its high byte is zero. -/
theorem hiByte_cut_wX (hX : s.fX = true) (v : Word) : hiByte (cut s.wX v) = 0 := by
  rw [wX_of_fX hX, cut_w8, hiByte_zext]

theorem changes_setX (op : Op) (s : State) (v : Word) : Changes op s (s.setX s.wX v) where
  kept p _ := by cases p <;> simp [Part.Kept]
  machine := .refl s
  mode h := ⟨h.1, fun hX => ⟨hiByte_cut_wX hX v, (h.2 hX).2⟩⟩
  memory := id

theorem changes_setY (op : Op) (s : State) (v : Word) : Changes op s (s.setY s.wX v) where
  kept p _ := by cases p <;> simp [Part.Kept]
  machine := .refl s
  mode h := ⟨h.1, fun hX => ⟨(h.2 hX).1, hiByte_cut_wX hX v⟩⟩
  memory := id

/-- A byte in X fits both index widths. -/
theorem changes_x_zext (op : Op) (s : State) (b : Byte) : Changes op s { s with x := zext b } where
  kept p _ := by cases p <;> simp [Part.Kept]
  machine := .refl s
  mode h := ⟨h.1, fun hX => ⟨hiByte_zext b, (h.2 hX).2⟩⟩
  memory := id

/-- The status byte, where it is written, keeps the mode legal: emulation keeps the widths, and setting fX cuts the index
registers (10_state.md R41, R42, R44). -/
theorem modeInv_withStatus (p : Byte) (h : s.ModeInv) : (s.withStatus p).ModeInv := by
  obtain ⟨hE, hX⟩ := h
  cases hfE : s.fE with
  | true =>
    obtain ⟨hM, hfX⟩ := hE hfE
    simpa [State.ModeInv, State.withStatus, hfE, hM, hfX] using hX hfX
  | false =>
    refine ⟨by simp [State.withStatus, hfE], fun h4 => ?_⟩
    have hp : p.getLsbD 4 = true := by simpa [State.withStatus, hfE] using h4
    simp [State.withStatus, hfE, hp]

theorem changes_setP (h : op = .plp ∨ op = .rti) (s : State) (p : Byte) : Changes op s (s.setP p) := by
  rw [setP_withStatus]
  obtain rfl | rfl := h
  · exact .of_update rfl (modeInv_withStatus p) id
  · exact .of_update rfl (modeInv_withStatus p) id

theorem changes_push8 (hop : op ∈ Part.sp.writers) {v : Byte} (h : push8 v s = .ok t) : Changes op s t := by
  obtain ⟨heq, hmem⟩ := push8_spec h
  refine ⟨fun p hp => ?_, ?_, ?_, hmem⟩
  · rw [heq]
    cases p with
    | sp => exact absurd hop hp
    | _ => simp [Part.Kept]
  · rw [heq]; exact .refl s
  · rw [heq]; exact id

theorem changes_pop8 (hop : op ∈ Part.sp.writers) {v : Byte} (h : pop8 s = .ok (v, t)) : Changes op s t := by
  rw [pop8_spec h]
  refine ⟨fun p hp => ?_, .refl s, id, id⟩
  cases p with
  | sp => exact absurd hop hp
  | _ => simp [Part.Kept]

theorem changes_rpush8 (hop : op ∈ Part.r.writers) {v : Byte} (h : rpush8 v s = .ok t) : Changes op s t := by
  obtain ⟨heq, hmem⟩ := rpush8_spec h
  refine ⟨fun p hp => ?_, ?_, ?_, hmem⟩
  · rw [heq]
    cases p with
    | r => exact absurd hop hp
    | _ => simp [Part.Kept]
  · rw [heq]; exact .refl s
  · rw [heq]; exact id

theorem changes_rpop8 (hop : op ∈ Part.r.writers) {v : Byte} (h : rpop8 s = .ok (v, t)) : Changes op s t := by
  rw [rpop8_spec h]
  refine ⟨fun p hp => ?_, .refl s, id, id⟩
  cases p with
  | r => exact absurd hop hp
  | _ => simp [Part.Kept]

end Updates

/-! ## How a computation of an operation can end -/

/-- A computation answers where devices cover the address space, faults at addresses that nothing covers alone, and the
state it answers is a change of the operation. -/
def Works {β : Type} (op : Op) (out : β → State) (s : State) (r : Except Fault β) : Prop :=
  Answers s r ∧ ∀ v, r = .ok v → Changes op s (out v)

section Works

variable {β γ : Type} {op : Op} {out : β → State} {out' : γ → State} {s : State}

theorem Works.ok {v : β} (h : Changes op s (out v)) : Works op out s (.ok v) :=
  ⟨answers_ok s v, fun u hu => by cases hu; exact h⟩

theorem Works.runs {r : Except Fault β} (h : Works op out s r) (hop : op ≠ .mmu) : Runs out s r :=
  ⟨h.1, fun v hv => (h.2 v hv).sameBus hop⟩

theorem Works.bind {x : Except Fault β} {f : β → Except Fault γ} (hx : Works op out s x) (hop : op ≠ .mmu)
    (hf : ∀ v, x = .ok v → Works op out' (out v) (f v)) : Works op out' s (x >>= f) := by
  refine ⟨((hx.runs hop).bind fun v hv => (hf v hv).runs hop).1, fun u hu => ?_⟩
  obtain ⟨v, hv, hu⟩ := bind_eq_ok.1 hu
  exact (hx.2 v hv).trans ((hf v hv).2 u hu)

/-- A computation begun after a change of the operation. -/
theorem Works.after {t : State} {r : Except Fault β} (h : Changes op s t) (hop : op ≠ .mmu)
    (hr : Works op out t r) : Works op out s r :=
  ⟨((hr.runs hop).of_sameBus (h.sameBus hop)).1, fun v hv => h.trans (hr.2 v hv)⟩

end Works

section Accesses

variable (op : Op) (s : State)

theorem works_memRead16 (a : Word) : Works op Prod.snd s (memRead16 a s) :=
  ⟨(runs_memRead16 a s).1, fun _ h => (memRead16_readOnly h).changes op⟩

theorem works_memReadW (w : Width) (a : Word) : Works op Prod.snd s (memReadW w a s) :=
  ⟨(runs_memReadW w a s).1, fun _ h => (memReadW_readOnly h).changes op⟩

theorem works_zpPtr (z : Byte) : Works op Prod.snd s (zpPtr z s) :=
  ⟨(runs_zpPtr z s).1, fun _ h => (zpPtr_readOnly h).changes op⟩

theorem works_effAddr (m : MemMode) : Works op Prod.snd s (effAddr m s) :=
  ⟨(runs_effAddr m s).1, fun _ h => (effAddr_readOnly h).changes op⟩

theorem works_readSrc (w : Width) (src : Src) : Works op Prod.snd s (readSrc w src s) :=
  ⟨(runs_readSrc w src s).1, fun _ h => (readSrc_readOnly h).changes op⟩

theorem works_memWriteW (w : Width) (a v : Word) : Works op id s (memWriteW w a v s) :=
  ⟨(runs_memWriteW w a v s).1, fun _ h => (memWriteW_busOnly h).changes op⟩

theorem works_storeMem (w : Width) (m : MemMode) (v : Word) : Works op id s (storeMem w m v s) :=
  ⟨(runs_storeMem w m v s).1, fun _ h => (storeMem_busOnly h).changes op⟩

end Accesses

section Stacks

variable {op : Op} (s : State)

theorem works_push8 (hop : op ∈ Part.sp.writers) (v : Byte) : Works op id s (push8 v s) :=
  ⟨(runs_push8 v s).1, fun _ h => changes_push8 hop h⟩

theorem works_pop8 (hop : op ∈ Part.sp.writers) : Works op Prod.snd s (pop8 s) :=
  ⟨(runs_pop8 s).1, fun _ h => changes_pop8 hop h⟩

theorem works_rpush8 (hop : op ∈ Part.r.writers) (v : Byte) : Works op id s (rpush8 v s) :=
  ⟨(runs_rpush8 v s).1, fun _ h => changes_rpush8 hop h⟩

theorem works_rpop8 (hop : op ∈ Part.r.writers) : Works op Prod.snd s (rpop8 s) :=
  ⟨(runs_rpop8 s).1, fun _ h => changes_rpop8 hop h⟩

/-- MMU writes no stack pointer. -/
theorem ne_mmu_of_writes_sp (hop : op ∈ Part.sp.writers) : op ≠ .mmu := by
  rintro rfl
  exact absurd hop (by decide)

theorem ne_mmu_of_writes_r (hop : op ∈ Part.r.writers) : op ≠ .mmu := by
  rintro rfl
  exact absurd hop (by decide)

theorem works_push16 (hop : op ∈ Part.sp.writers) (v : Word) : Works op id s (push16 v s) :=
  (works_push8 s hop _).bind (ne_mmu_of_writes_sp hop) fun t _ => works_push8 t hop _

theorem works_pop16 (hop : op ∈ Part.sp.writers) : Works op Prod.snd s (pop16 s) :=
  have hne := ne_mmu_of_writes_sp hop
  (works_pop8 s hop).bind hne fun t _ => (works_pop8 t.2 hop).bind hne fun _ _ => .ok (.refl ..)

theorem works_pushW (hop : op ∈ Part.sp.writers) (w : Width) (v : Word) : Works op id s (pushW w v s) := by
  cases w
  · exact works_push8 s hop _
  · exact works_push16 s hop _

theorem works_popW (hop : op ∈ Part.sp.writers) (w : Width) : Works op Prod.snd s (popW w s) := by
  cases w
  · exact (works_pop8 s hop).bind (ne_mmu_of_writes_sp hop) fun _ _ => .ok (.refl ..)
  · exact works_pop16 s hop

theorem works_rpush16 (hop : op ∈ Part.r.writers) (v : Word) : Works op id s (rpush16 v s) :=
  (works_rpush8 s hop _).bind (ne_mmu_of_writes_r hop) fun t _ => works_rpush8 t hop _

theorem works_rpop16 (hop : op ∈ Part.r.writers) : Works op Prod.snd s (rpop16 s) :=
  have hne := ne_mmu_of_writes_r hop
  (works_rpop8 s hop).bind hne fun t _ => (works_rpop8 t.2 hop).bind hne fun _ _ => .ok (.refl ..)

theorem works_rpushW (hop : op ∈ Part.r.writers) (w : Width) (v : Word) : Works op id s (rpushW w v s) := by
  cases w
  · exact works_rpush8 s hop _
  · exact works_rpush16 s hop _

theorem works_rpopW (hop : op ∈ Part.r.writers) (w : Width) : Works op Prod.snd s (rpopW w s) := by
  cases w
  · exact (works_rpop8 s hop).bind (ne_mmu_of_writes_r hop) fun _ _ => .ok (.refl ..)
  · exact works_rpop16 s hop

end Stacks

end Sys2Proof.Machine
end

section
/-! PROOFS. What each operation changes at most, and how it can end. -/
namespace Sys2Proof.Machine

/-! ## The operations in their shared shapes -/

theorem opAdc_eq (src : Src) (s : State) : opAdc src s = withOperand s.wM
    (fun m t => t.putAlu s.wM (if t.fD then addDec s.wM (t.acc s.wM) m t.fC else addBin s.wM (t.acc s.wM) m t.fC)) src s :=
  rfl

theorem opSbc_eq (src : Src) (s : State) : opSbc src s = withOperand s.wM
    (fun m t => t.putAlu s.wM (if t.fD then subDec s.wM (t.acc s.wM) m t.fC else subBin s.wM (t.acc s.wM) m t.fC)) src s :=
  rfl

theorem opBit_eq (m : MemMode) (s : State) : opBit m s = withOperand s.wM (fun v t =>
    { t with fZ := (t.acc s.wM &&& v) == 0, fN := topBit s.wM v, fV := v.getLsbD (s.wM.bits - 2) }) (.mem m) s := rfl

theorem opBitImm_eq (v : Word) (s : State) :
    opBitImm v s = withOperand s.wM (fun v t => { t with fZ := (t.acc s.wM &&& v) == 0 }) (.imm v) s := rfl

/-- MUL of an operand: the product and its flags (48_muldiv.md R430). -/
def State.multiplied (s : State) (v : Word) : State :=
  let p := product s.mulDivSigned s.a16 v
  { s.setAcc .w16 (p.setWidth 16) with d := (p >>> 16).setWidth 16, fN := p.getLsbD 31, fZ := p == 0 }

theorem opMul_eq (m : MemMode) (s : State) : opMul m s = withOperand .w16 (fun v t => t.multiplied v) (.mem m) s := rfl

/-- DIV by an operand: the quotient, the remainder and their flags (48_muldiv.md R431). -/
def State.divided (s : State) (v : Word) : State :=
  if v = 0 then { s with al := 0, ah := 0, d := 0, fV := true, fZ := true, fN := false }
  else
    let q := quotient s.mulDivSigned (s.d ++ s.a16) v
    { s.setAcc .w16 q.1 with d := q.2, fV := false }.setNZ .w16 q.1

theorem opDiv_eq (m : MemMode) (s : State) : opDiv m s = withOperand .w16 (fun v t => t.divided v) (.mem m) s := by
  unfold opDiv withOperand State.divided
  cases readSrc .w16 (.mem m) s with
  | error f => rfl
  | ok p => simp only [ok_bind]; split <;> rfl

/-! ## Operations on a source operand -/

theorem Changes.wX_eq {op : Op} {s t : State} (h : Changes op s t) (hop : op ∉ Part.widths.writers) : t.wX = s.wX := by
  have hwidths : Part.widths.Kept s t := h.kept .widths hop
  rw [State.wX, hwidths.2, State.wX]

theorem changes_accResult {op : Op} (h : op ∈ Part.acc.writers) (s : State) (w : Width) (v : Word) :
    Changes op s ((s.setAcc w v).setNZ w v) :=
  (changes_setAcc h s w v).trans (changes_setNZ op _ w v)

theorem changes_putAlu {op : Op} (hacc : op ∈ Part.acc.writers) (hC : op ∈ Part.fC.writers) (hV : op ∈ Part.fV.writers)
    (s : State) (w : Width) (q : AluResult) : Changes op s (s.putAlu w q) where
  kept p hp := by
    cases p with
    | acc => exact absurd hacc hp
    | fC => exact absurd hC hp
    | fV => exact absurd hV hp
    | _ => simp [Part.Kept]
  machine := by simp [SameMachine]
  mode := by simp [State.ModeInv]
  memory := by simp

theorem changes_compare {op : Op} (h : op ∈ Part.fC.writers) (s : State) (w : Width) (reg m : Word) :
    Changes op s (s.compare w reg m) where
  kept p hp := by
    cases p with
    | fC => exact absurd h hp
    | _ => simp [Part.Kept]
  machine := .refl s
  mode := id
  memory := id

theorem works_withOperand {op : Op} {w : Width} {g : Word → State → State} (src : Src) (s : State)
    (hop : op ≠ .mmu) (hg : ∀ m t, ReadOnly s t → Changes op t (g m t)) : Works op id s (withOperand w g src s) :=
  (works_readSrc op s w src).bind hop fun _ h => .ok (hg _ _ (readSrc_readOnly h))

theorem works_opOra (src : Src) (s : State) : Works .ora id s (opOra src s) := by
  rw [opOra_eq]
  exact works_withOperand src s nofun fun _ t _ => changes_accResult (by decide) t _ _

theorem works_opAnd (src : Src) (s : State) : Works .and id s (opAnd src s) := by
  rw [opAnd_eq]
  exact works_withOperand src s nofun fun _ t _ => changes_accResult (by decide) t _ _

theorem works_opEor (src : Src) (s : State) : Works .eor id s (opEor src s) := by
  rw [opEor_eq]
  exact works_withOperand src s nofun fun _ t _ => changes_accResult (by decide) t _ _

theorem works_opAdc (src : Src) (s : State) : Works .adc id s (opAdc src s) := by
  rw [opAdc_eq]
  exact works_withOperand src s nofun fun _ t _ => changes_putAlu (by decide) (by decide) (by decide) t _ _

theorem works_opSbc (src : Src) (s : State) : Works .sbc id s (opSbc src s) := by
  rw [opSbc_eq]
  exact works_withOperand src s nofun fun _ t _ => changes_putAlu (by decide) (by decide) (by decide) t _ _

theorem works_opBit (m : MemMode) (s : State) : Works .bit id s (opBit m s) := by
  rw [opBit_eq]
  exact works_withOperand (.mem m) s nofun fun _ _ _ => .of_update rfl id id

theorem works_opBitImm (v : Word) (s : State) : Works .bit id s (opBitImm v s) := by
  rw [opBitImm_eq]
  exact works_withOperand (.imm v) s nofun fun _ _ _ => .of_update rfl id id

theorem works_opCmp (src : Src) (s : State) : Works .cmp id s (opCmp src s) := by
  rw [opCmp_eq]
  exact works_withOperand src s nofun fun _ t _ => changes_compare (by decide) t _ _ _

theorem works_opCpx (src : Src) (s : State) : Works .cpx id s (opCpx src s) := by
  rw [opCpx_eq]
  exact works_withOperand src s nofun fun _ t _ => changes_compare (by decide) t _ _ _

theorem works_opCpy (src : Src) (s : State) : Works .cpy id s (opCpy src s) := by
  rw [opCpy_eq]
  exact works_withOperand src s nofun fun _ t _ => changes_compare (by decide) t _ _ _

theorem works_opLda (src : Src) (s : State) : Works .lda id s (opLda src s) := by
  rw [opLda_eq]
  exact works_withOperand src s nofun fun _ t _ => changes_accResult (by decide) t _ _

theorem changes_xResult (op : Op) (s : State) (v : Word) : Changes op s ((s.setX s.wX v).setNZ s.wX v) :=
  (changes_setX op s v).trans (changes_setNZ op _ _ v)

theorem changes_yResult (op : Op) (s : State) (v : Word) : Changes op s ((s.setY s.wX v).setNZ s.wX v) :=
  (changes_setY op s v).trans (changes_setNZ op _ _ v)

theorem ReadOnly.wX_eq {s t : State} (h : ReadOnly s t) : t.wX = s.wX := by rw [h]; rfl

theorem works_opLdx (src : Src) (s : State) : Works .ldx id s (opLdx src s) := by
  rw [opLdx_eq]
  exact works_withOperand src s nofun fun v t h => h.wX_eq ▸ changes_xResult .ldx t v

theorem works_opLdy (src : Src) (s : State) : Works .ldy id s (opLdy src s) := by
  rw [opLdy_eq]
  exact works_withOperand src s nofun fun v t h => h.wX_eq ▸ changes_yResult .ldy t v

theorem works_opMul (m : MemMode) (s : State) : Works .mul id s (opMul m s) := by
  rw [opMul_eq]
  exact works_withOperand (.mem m) s nofun fun _ _ _ => .of_update rfl id id

theorem changes_divided (s : State) (v : Word) : Changes .div s (s.divided v) := by
  unfold State.divided
  split
  · exact .of_update rfl id id
  · exact .of_update rfl id id

theorem works_opDiv (m : MemMode) (s : State) : Works .div id s (opDiv m s) := by
  rw [opDiv_eq]
  exact works_withOperand (.mem m) s nofun fun v t _ => changes_divided t v

/-! ## Read-modify-write operations and stores -/

theorem works_modifyLoc_mem (op : Op) (w : Width) (m : MemMode) (f : Word → Word) (s : State)
    (hop : op ≠ .mmu) : Works op Prod.snd s (modifyLoc w (.mem m) f s) :=
  (works_effAddr op s m).bind hop fun p _ => (works_memReadW op p.2 w p.1).bind hop fun q _ =>
    (works_memWriteW op q.2 w p.1 (f q.1)).bind hop fun _ _ => .ok (.refl ..)

theorem works_modifyLoc {op : Op} (h : op ∈ Part.acc.writers) (w : Width) (loc : Loc) (f : Word → Word) (s : State)
    (hop : op ≠ .mmu) : Works op Prod.snd s (modifyLoc w loc f s) := by
  cases loc with
  | acc => exact .ok (changes_setAcc h s w _)
  | mem m => exact works_modifyLoc_mem op w m f s hop

theorem works_modifyWith {op : Op} (h : op ∈ Part.acc.writers) {w : Width} {f : Word → Word} {g : Word → State → State}
    (loc : Loc) (s : State) (hop : op ≠ .mmu) (hg : ∀ v t, Changes op t (g v t)) : Works op id s (modifyWith w f g loc s) :=
  (works_modifyLoc h w loc f s hop).bind hop fun _ _ => .ok ((hg _ _).trans (changes_setNZ op _ w _))

theorem works_opAsl (loc : Loc) (s : State) : Works .asl id s (opAsl loc s) := by
  rw [opAsl, shiftLoc_eq]
  exact works_modifyWith (by decide) loc s nofun fun _ _ => .of_update rfl id id

theorem works_opLsr (loc : Loc) (s : State) : Works .lsr id s (opLsr loc s) := by
  rw [opLsr, shiftLoc_eq]
  exact works_modifyWith (by decide) loc s nofun fun _ _ => .of_update rfl id id

theorem works_opRol (loc : Loc) (s : State) : Works .rol id s (opRol loc s) := by
  rw [opRol, shiftLoc_eq]
  exact works_modifyWith (by decide) loc s nofun fun _ _ => .of_update rfl id id

theorem works_opRor (loc : Loc) (s : State) : Works .ror id s (opRor loc s) := by
  rw [opRor, shiftLoc_eq]
  exact works_modifyWith (by decide) loc s nofun fun _ _ => .of_update rfl id id

theorem works_opInc (loc : Loc) (s : State) : Works .inc id s (opInc loc s) := by
  rw [opInc_eq]
  exact works_modifyWith (by decide) loc s nofun fun _ t => .refl _ t

theorem works_opDec (loc : Loc) (s : State) : Works .dec id s (opDec loc s) := by
  rw [opDec_eq]
  exact works_modifyWith (by decide) loc s nofun fun _ t => .refl _ t

theorem works_opTsb (m : MemMode) (s : State) : Works .tsb id s (opTsb m s) :=
  (works_modifyLoc_mem .tsb s.wM m _ s nofun).bind nofun fun _ _ => .ok (.of_update rfl id id)

theorem works_opTrb (m : MemMode) (s : State) : Works .trb id s (opTrb m s) :=
  (works_modifyLoc_mem .trb s.wM m _ s nofun).bind nofun fun _ _ => .ok (.of_update rfl id id)

/-! ## Control -/

theorem works_branchIf (op : Op) (taken : Bool) (b : Byte) (s : State) : Works op id s (branchIf taken b s) := by
  cases taken
  · exact .ok (.refl op s)
  · exact .ok (changes_pc op s _)

theorem works_opJmpIndirect (w : Word) (s : State) : Works .jmp id s (opJmpIndirect w s) :=
  (works_memRead16 .jmp s w).bind nofun fun _ _ => .ok (changes_pc ..)

theorem works_opJmpIndexed (w : Word) (s : State) : Works .jmp id s (opJmpIndexed w s) :=
  (works_memRead16 .jmp s (w + s.x)).bind nofun fun _ _ => .ok (changes_pc ..)

theorem works_opJsr (w : Word) (s : State) : Works .jsr id s (opJsr w s) :=
  (works_push16 s (by decide) (s.pc - 1)).bind nofun fun _ _ => .ok (changes_pc ..)

theorem works_opJsrIndexed (w : Word) (s : State) : Works .jsr id s (opJsrIndexed w s) :=
  (works_memRead16 .jsr s (w + s.x)).bind nofun fun p _ => (works_push16 p.2 (by decide) (p.2.pc - 1)).bind nofun fun _ _ =>
    .ok (changes_pc ..)

theorem works_opRts (s : State) : Works .rts id s (opRts s) :=
  (works_pop16 s (by decide)).bind nofun fun _ _ => .ok (changes_pc ..)

/-- The return pulls the status byte and then the return address (44_control.md R323). -/
theorem works_opRti (s : State) : Works .rti id s (opRti s) :=
  (works_pop8 s (by decide)).bind nofun fun q _ =>
    .after (changes_setP (.inr rfl) q.2 q.1) nofun ((works_pop16 _ (by decide)).bind nofun fun _ _ => .ok (changes_pc ..))

/-- The entry of an interrupt, by a line or by BRK, changes what BRK may change (60_exceptions.md R487, R488). -/
theorem works_takeInterrupt (brk : Bool) (returnAddress vector : Word) (s : State) :
    Works .brk id s (takeInterrupt brk returnAddress vector s) :=
  .after (t := { s with fB := brk }) (.of_update rfl id id) nofun
    ((works_push16 _ (by decide) returnAddress).bind nofun fun u _ =>
      (works_push8 u (by decide) u.getP).bind nofun fun _ _ => .ok (.of_update rfl id id))

/-! ## The stacks -/

theorem works_opPla (s : State) : Works .pla id s (opPla s) :=
  (works_popW s (by decide) s.wM).bind nofun fun q _ => .ok (changes_accResult (by decide) q.2 _ _)

theorem works_opPlx (s : State) : Works .plx id s (opPlx s) := by
  have hpop := works_popW (op := .plx) s (by decide) s.wX
  exact hpop.bind nofun fun q hq => .ok ((hpop.2 q hq).wX_eq (by decide) ▸ changes_xResult .plx q.2 q.1)

theorem works_opPly (s : State) : Works .ply id s (opPly s) := by
  have hpop := works_popW (op := .ply) s (by decide) s.wX
  exact hpop.bind nofun fun q hq => .ok ((hpop.2 q hq).wX_eq (by decide) ▸ changes_yResult .ply q.2 q.1)

theorem works_opPlp (s : State) : Works .plp id s (opPlp s) :=
  (works_pop8 s (by decide)).bind nofun fun q _ => .ok (changes_setP (.inl rfl) q.2 q.1)

theorem works_opPld (s : State) : Works .pld id s (opPld s) :=
  (works_popW s (by decide) s.wM).bind nofun fun _ _ => .ok (.of_update rfl id id)

theorem works_opPei (z : Byte) (s : State) : Works .pei id s (opPei z s) :=
  (works_zpPtr .pei s z).bind nofun fun q _ => works_push16 q.2 (by decide) q.1

theorem works_opRla (s : State) : Works .rla id s (opRla s) :=
  (works_rpopW s (by decide) s.wM).bind nofun fun q _ => .ok (changes_accResult (by decide) q.2 _ _)

theorem works_opRlx (s : State) : Works .rlx id s (opRlx s) := by
  have hpop := works_rpopW (op := .rlx) s (by decide) s.wX
  exact hpop.bind nofun fun q hq => .ok ((hpop.2 q hq).wX_eq (by decide) ▸ changes_xResult .rlx q.2 q.1)

theorem works_opRly (s : State) : Works .rly id s (opRly s) := by
  have hpop := works_rpopW (op := .rly) s (by decide) s.wX
  exact hpop.bind nofun fun q hq => .ok ((hpop.2 q hq).wX_eq (by decide) ▸ changes_yResult .rly q.2 q.1)

theorem works_opRli (s : State) : Works .rli id s (opRli s) :=
  (works_rpop16 s (by decide)).bind nofun fun _ _ => .ok (.of_update rfl id id)

theorem works_opRei (z : Byte) (s : State) : Works .rei id s (opRei z s) :=
  (works_zpPtr .rei s z).bind nofun fun q _ => works_rpush16 q.2 (by decide) q.1

theorem works_opEnt (w : Word) (s : State) : Works .ent id s (opEnt w s) :=
  (works_rpush16 s (by decide) s.i).bind nofun fun _ _ => .ok (.of_update rfl id id)

theorem works_opNxt (s : State) : Works .nxt id s (opNxt s) :=
  (works_memRead16 .nxt s s.i).bind nofun fun _ _ => .ok (.of_update rfl id id)

theorem works_opNxa (s : State) : Works .nxa id s (opNxa s) :=
  (works_memReadW .nxa s s.wM s.i).bind nofun fun q _ =>
    .ok ((changes_accResult (by decide) q.2 s.wM q.1).trans (.of_update rfl id id))

/-! ## Mode switch and system -/

/-- In emulation mode REP leaves the widths; outside it they can only become 16 (47_mode_switch.md R410). -/
theorem works_opRep (k : Byte) (s : State) : Works .rep id s (opRep k s) := by
  unfold opRep
  simp only
  split
  · exact .ok (.of_update rfl (fun h => h) id)
  next hE =>
    refine .ok (.of_update rfl (fun h => ⟨fun hE' => absurd hE' hE, fun hX => h.2 ?_⟩) id)
    exact (Bool.and_eq_true_iff.1 hX).1

/-- The cut of the index registers makes the mode legal where both widths are 8 or emulation is off. -/
theorem modeInv_cutIndex {s : State} (h : s.fE = true → s.fM = true ∧ s.fX = true) : s.cutIndex.ModeInv :=
  ⟨h, fun _ => ⟨hiByte_zext _, hiByte_zext _⟩⟩

/-- SEP outside emulation mode cuts the index registers where it sets fX (47_mode_switch.md R411). -/
theorem works_opSep (k : Byte) (s : State) : Works .sep id s (opSep k s) := by
  unfold opSep
  simp only
  split
  next hE => exact .ok (.of_update rfl (fun h => h) id)
  next hE =>
    split
    next hk => exact .ok (.of_update rfl (fun h => modeInv_cutIndex fun hE' => absurd hE' hE) id)
    next hk => exact .ok (.of_update rfl (fun h => ⟨fun hE' => absurd hE' hE, h.2⟩) id)

/-- XCE into emulation mode makes both widths 8 and cuts the index registers (47_mode_switch.md R412). -/
theorem works_opXce (s : State) : Works .xce id s (opXce s) := by
  unfold opXce
  simp only
  split
  next hC => exact .ok (.of_update rfl (fun _ => modeInv_cutIndex fun _ => ⟨rfl, rfl⟩) id)
  next hC => exact .ok (.of_update rfl (fun h => ⟨fun hE => absurd hE hC, h.2⟩) id)

/-- The MMU operation with a selector, case by case (49_system.md R453). -/
theorem changes_mmuOp (k : Byte) (s : State) : Changes .mmu s (mmuOp k s) := by
  have hacc (v : Word) : Changes .mmu s (s.setAcc s.wM v) := changes_setAcc (by decide) s s.wM v
  unfold mmuOp
  simp only
  split
  case h_8 => exact hacc _
  case h_9 => exact hacc _
  case h_11 => exact hacc _
  case h_13 => exact hacc _
  case h_14 => exact hacc _
  case h_15 =>
    unfold logAcc
    split
    · exact (tell_busOnly s _).changes .mmu
    · exact .refl ..
  all_goals exact .of_update rfl id id

/-- Every instruction does what its operation may do; the rows of one operation share its lemma. -/
theorem works_perform (i : Instr) (s : State) : Works i.op id s (perform i.op i.operand s) := by
  cases i with
  | brk => exact works_takeInterrupt _ _ _ s
  | oraIzpX | oraSr | oraZp | oraRr | oraImmM | oraAbs | oraIzpY | oraIzp | oraIsrY | oraZpX | oraIrrY | oraAbsY |
    oraAbsX =>
    exact works_opOra _ s
  | nxt => exact works_opNxt s
  | tsbZp | tsbAbs => exact works_opTsb _ s
  | aslZp | aslAcc | aslAbs | aslZpX | aslAbsX => exact works_opAsl _ s
  | php => exact works_push8 s (by decide) _
  | rhi | rea | rer => exact works_rpush16 s (by simp [Instr.op, Part.writers]) _
  | mulZp | mulZpX | mulAbs | mulAbsX => exact works_opMul _ s
  | bpl | bmi | bvc | bvs | bra | bcc | bcs | bne | beq => exact works_branchIf _ _ _ s
  | trbZp | trbAbs => exact works_opTrb _ s
  | clc | sec | cli | txi | sei | txr | zea | txs | sea | clv | tad | wai | cld | stp | xba | sed | illegal =>
    exact .ok (.of_update rfl id id)
  | incAcc | incZp | incAbs | incZpX | incAbsX => exact works_opInc _ s
  | rhx | rha | rhy => exact works_rpushW s (by decide) _ _
  | jsrAbs => exact works_opJsr _ s
  | andIzpX | andSr | andZp | andRr | andImmM | andAbs | andIzpY | andIzp | andIsrY | andZpX | andIrrY | andAbsY |
    andAbsX =>
    exact works_opAnd _ s
  | ent => exact works_opEnt _ s
  | bitZp | bitAbs | bitZpX | bitAbsX => exact works_opBit _ s
  | rolZp | rolAcc | rolAbs | rolZpX | rolAbsX => exact works_opRol _ s
  | plp => exact works_opPlp s
  | rli => exact works_opRli s
  | decAcc | decZp | decAbs | decZpX | decAbsX => exact works_opDec _ s
  | rlx => exact works_opRlx s
  | rti => exact works_opRti s
  | eorIzpX | eorSr | eorZp | eorRr | eorImmM | eorAbs | eorIzpY | eorIzp | eorIsrY | eorZpX | eorIrrY | eorAbsY |
    eorAbsX =>
    exact works_opEor _ s
  | nxa => exact works_opNxa s
  | lsrZp | lsrAcc | lsrAbs | lsrZpX | lsrAbsX => exact works_opLsr _ s
  | pha | phy | phx | phd => exact works_pushW s (by decide) _ _
  | jmpAbs => exact .ok (changes_pc _ s _)
  | divZp | divZpX | divAbs | divAbsX => exact works_opDiv _ s
  | rei => exact works_opRei _ s
  | rts => exact works_opRts s
  | adcIzpX | adcSr | adcZp | adcRr | adcImmM | adcAbs | adcIzpY | adcIzp | adcIsrY | adcZpX | adcIrrY | adcAbsY |
    adcAbsX =>
    exact works_opAdc _ s
  | per | pea => exact works_push16 s (by simp [Instr.op, Part.writers]) _
  | stzZp | stzZpX | stzAbs | stzAbsX | staIzpX | staSr | staZp | staRr | staAbs | staIzpY | staIzp | staIsrY |
    staZpX | staIrrY | staAbsY | staAbsX | styZp | styAbs | styZpX | stxZp | stxAbs | stxZpY =>
    exact works_storeMem _ s _ _ _
  | rorZp | rorAcc | rorAbs | rorZpX | rorAbsX => exact works_opRor _ s
  | pla => exact works_opPla s
  | rla => exact works_opRla s
  | jmpIabs => exact works_opJmpIndirect _ s
  | ply => exact works_opPly s
  | rly => exact works_opRly s
  | jmpIabsX => exact works_opJmpIndexed _ s
  | dey | txy | tay | iny => exact .ok (changes_yResult _ s _)
  | bitImmM => exact works_opBitImm _ s
  | txa | tya | tda => exact .ok (changes_accResult (by decide) s _ _)
  | ldyImmX | ldyZp | ldyAbs | ldyZpX | ldyAbsX => exact works_opLdy _ s
  | ldaIzpX | ldaSr | ldaZp | ldaRr | ldaImmM | ldaAbs | ldaIzpY | ldaIzp | ldaIsrY | ldaZpX | ldaIrrY | ldaAbsY |
    ldaAbsX =>
    exact works_opLda _ s
  | ldxImmX | ldxZp | ldxAbs | ldxZpY | ldxAbsY => exact works_opLdx _ s
  | tax | tyx | dex | tix | inx => exact .ok (changes_xResult _ s _)
  | trx | tsx => exact .ok ((changes_x_zext _ s _).trans (changes_setNZ ..))
  | cpyImmX | cpyZp | cpyAbs => exact works_opCpy _ s
  | cmpIzpX | cmpSr | cmpZp | cmpRr | cmpImmM | cmpAbs | cmpIzpY | cmpIzp | cmpIsrY | cmpZpX | cmpIrrY | cmpAbsY |
    cmpAbsX =>
    exact works_opCmp _ s
  | rep => exact works_opRep _ s
  | pld => exact works_opPld s
  | pei => exact works_opPei _ s
  | cpxImmX | cpxZp | cpxAbs => exact works_opCpx _ s
  | sbcIzpX | sbcSr | sbcZp | sbcRr | sbcImmM | sbcAbs | sbcIzpY | sbcIzp | sbcIsrY | sbcZpX | sbcIrrY | sbcAbsY |
    sbcAbsX =>
    exact works_opSbc _ s
  | sep => exact works_opSep _ s
  | nop => exact .ok (.refl _ s)
  | mmu => exact .ok (changes_mmuOp _ s)
  | plx => exact works_opPlx s
  | xce => exact works_opXce s
  | jsrIabsX => exact works_opJsrIndexed _ s

end Sys2Proof.Machine
end

section
/-! PROOFS. What every instruction and every machine step keeps: who writes what (10_state.md), how an instruction and a
step can end (00_scope.md section 4, 60_exceptions.md section 4), and the invariant of the machine. -/

namespace Sys2Proof.Machine

/-! ## An instruction changes what its operation may change -/

theorem exec_changes {i : Instr} {s t : State} (h : exec i s = .next t) : Changes i.op s t := by
  rw [exec_eq_perform, finish_eq_next] at h
  exact (works_perform i s).2 t h

/-- A part that differs was written by a writer of it. -/
theorem Changes.writes {op : Op} {s t : State} (h : Changes op s t) (p : Part) (hp : ¬ p.Kept s t) : op ∈ p.writers := by
  by_contra hop
  exact hp (h.kept p hop)

/-! ## The operations with one row -/

theorem eq_xce_of_op {i : Instr} (h : i.op = .xce) : i = .xce := by cases i <;> first | rfl | cases h
theorem eq_brk_of_op {i : Instr} (h : i.op = .brk) : i = .brk := by cases i <;> first | rfl | cases h
theorem eq_plp_of_op {i : Instr} (h : i.op = .plp) : i = .plp := by cases i <;> first | rfl | cases h
theorem eq_rti_of_op {i : Instr} (h : i.op = .rti) : i = .rti := by cases i <;> first | rfl | cases h
theorem eq_wai_of_op {i : Instr} (h : i.op = .wai) : i = .wai := by cases i <;> first | rfl | cases h
theorem eq_stp_of_op {i : Instr} (h : i.op = .stp) : i = .stp := by cases i <;> first | rfl | cases h
theorem eq_illegal_of_op {i : Instr} (h : i.op = .illegal) : i = .illegal := by cases i <;> first | rfl | cases h
theorem eq_mmu_of_op {i : Instr} (h : i.op = .mmu) : ∃ k, i = .mmu k := by
  cases i <;> first | exact ⟨_, rfl⟩ | cases h

/-! ## BRK and MMU, whose writes depend on more than the operation -/

theorem takeInterrupt_eq_ok {brk : Bool} {ret vec : Word} {s t : State} : takeInterrupt brk ret vec s = .ok t ↔
    ∃ u v, push16 ret { s with fB := brk } = .ok u ∧ push8 u.getP u = .ok v ∧
      t = { v with fI := true, fD := if v.params.intClearsD then false else v.fD, pc := vec } := by
  unfold takeInterrupt
  constructor
  · intro h
    obtain ⟨u, hu, h⟩ := bind_eq_ok.1 h
    obtain ⟨v, hv, h⟩ := bind_eq_ok.1 h
    cases h
    exact ⟨u, v, hu, hv, rfl⟩
  · rintro ⟨u, v, hu, hv, rfl⟩
    exact bind_eq_ok.2 ⟨u, hu, bind_eq_ok.2 ⟨v, hv, rfl⟩⟩

/-- An entry clears fD only where `P_INT_CLEARS_D` says so: its pushes change what PHP may change, and so not fD. -/
theorem takeInterrupt_fD {brk : Bool} {ret vec : Word} {s t : State} (h : takeInterrupt brk ret vec s = .ok t)
    (hD : t.fD ≠ s.fD) : s.params.intClearsD = true := by
  obtain ⟨u, v, hu, hv, rfl⟩ := takeInterrupt_eq_ok.1 h
  have hpush : Changes .php { s with fB := brk } v :=
    ((works_push16 _ (by decide) ret).2 u hu).trans (changes_push8 (by decide) hv)
  have hfD : v.fD = s.fD := hpush.kept .fD (by decide)
  obtain ⟨-, -, -, -, -, -, -, -, hparams, -⟩ := hpush.machine
  by_contra hclear
  exact hD (by simp only [hparams, hclear, hfD]; rfl)

/-- The configuration registers that each selector of MMU writes (49_system.md R453). -/
theorem mmuOp_config (k : Byte) (s : State) : let t := mmuOp k s
    (t.por ≠ s.por → k = 0x06) ∧ (t.brkv ≠ s.brkv → k = 0x05) ∧ (t.rbSlot ≠ s.rbSlot → k = 0x00) ∧
    (t.rbWindow ≠ s.rbWindow → k = 0x01) ∧ (t.rbEnabled ≠ s.rbEnabled → k = 0x02 ∨ k = 0x82) ∧
    (t.rbAuxWin ≠ s.rbAuxWin → k = 0x03) ∧ (t.rbAuxEn ≠ s.rbAuxEn → k = 0x04 ∨ k = 0x84) := by
  have hk {n : Nat} (h : k.toNat = n) : k = BitVec.ofNat 8 n := by rw [← h, BitVec.ofNat_toNat, BitVec.setWidth_eq]
  unfold mmuOp
  split
  case h_15 => unfold logAcc; split <;> simp
  case h_16 => simp
  all_goals
    rename_i h
    simp [hk h]

/-- A change of a configuration register is that of MMU with the selector of the register. -/
theorem exec_config {i : Instr} {s t : State} (h : exec i s = .next t) :
    (t.por ≠ s.por → i = .mmu 0x06) ∧ (t.brkv ≠ s.brkv → i = .mmu 0x05) ∧ (t.rbSlot ≠ s.rbSlot → i = .mmu 0x00) ∧
    (t.rbWindow ≠ s.rbWindow → i = .mmu 0x01) ∧ (t.rbEnabled ≠ s.rbEnabled → i = .mmu 0x02 ∨ i = .mmu 0x82) ∧
    (t.rbAuxWin ≠ s.rbAuxWin → i = .mmu 0x03) ∧ (t.rbAuxEn ≠ s.rbAuxEn → i = .mmu 0x04 ∨ i = .mmu 0x84) := by
  by_cases hop : i.op ∈ Part.config.writers
  · obtain ⟨k, rfl⟩ := eq_mmu_of_op (List.mem_singleton.1 hop)
    cases h
    simpa using mmuOp_config k s
  · obtain ⟨hpor, hbrkv, hslot, hwindow, henabled, hauxwin, hauxen⟩ := (exec_changes h).kept .config hop
    exact ⟨absurd hpor, absurd hbrkv, absurd hslot, absurd hwindow, absurd henabled, absurd hauxwin, absurd hauxen⟩

theorem exec_fD {i : Instr} {s t : State} (h : exec i s = .next t) (hD : t.fD ≠ s.fD) :
    i.op ∈ [Op.sed, .cld, .rep, .sep, .plp, .rti] ∨ i = .brk ∧ s.params.intClearsD = true := by
  have hop : i.op ∈ Part.fD.writers := (exec_changes h).writes .fD hD
  rcases List.mem_append.1 (show i.op ∈ [Op.sed, .cld, .rep, .sep, .plp, .rti] ++ [.brk] from hop) with hop | hop
  · exact .inl hop
  · obtain rfl := eq_brk_of_op (List.mem_singleton.1 hop)
    exact .inr ⟨rfl, takeInterrupt_fD (finish_eq_next.1 h) hD⟩

/-- Settles O56: every instruction changes what its operation may change, and BRK and MMU less than that. -/
theorem onlyNamedInstructionsWrite : Obligations.OnlyNamedInstructionsWrite := by
  unfold Obligations.OnlyNamedInstructionsWrite
  intro i s t h
  have hc := exec_changes h
  obtain ⟨hpor, hbrkv, hslot, hwindow, henabled, hauxwin, hauxen⟩ := exec_config h
  refine ⟨?_, ?_, exec_fD h, hc.writes .fI, hc.writes .fV, hc.writes .fC, hc.writes .sp, hc.writes .r, hc.writes .i,
    hc.writes .d, hpor, hbrkv, hslot, hwindow, henabled, hauxwin, hauxen, ?_, ?_, ?_, hc.machine⟩
  · exact fun hE => eq_xce_of_op (List.mem_singleton.1 (hc.writes .fE hE))
  · intro hB
    have hop : i.op ∈ [Op.brk, .plp, .rti] := hc.writes .fB hB
    simp only [List.mem_cons, List.not_mem_nil, or_false] at hop
    exact hop.imp eq_brk_of_op (Or.imp eq_plp_of_op eq_rti_of_op)
  · exact fun ht => eq_illegal_of_op (List.mem_singleton.1 (hc.writes .trap ht))
  · exact fun hw => eq_wai_of_op (List.mem_singleton.1 (hc.writes .waiting hw))
  · exact fun hh => eq_stp_of_op (List.mem_singleton.1 (hc.writes .halted hh))

/-! ## How an instruction can end -/

/-- Settles O57: every operation answers where devices cover the address space, and faults at unmapped addresses alone. -/
theorem everyInstructionCompletes : Obligations.EveryInstructionCompletes := by
  unfold Obligations.EveryInstructionCompletes
  intro i s
  obtain ⟨hcover, hfault⟩ := (works_perform i s).1
  rw [exec_eq_perform]
  refine ⟨fun hc => ?_, fun f hf => ?_, fun r => finish_ne_refused⟩
  · obtain ⟨t, ht⟩ := hcover hc
    exact ⟨t, by rw [ht, finish_ok]⟩
  · cases hr : perform i.op i.operand s with
    | ok t => rw [hr, finish_ok] at hf; cases hf
    | error g =>
      rw [hr, finish_error] at hf
      cases hf
      exact hfault f hr

/-! ## The machine step in its parts -/

/-- The fetch moves the PC and records its reads. -/
theorem fetchByte_spec {s t : State} {b : Byte} (h : fetchByte s = .ok (b, t)) :
    t = { s with pc := s.pc + 1, events := t.events } := by
  obtain ⟨⟨v, u⟩, hu, h⟩ := bind_eq_ok.1 h
  cases h
  rw [busRead_readOnly hu]

theorem fetch_spec {s t : State} {i : Instr} (h : fetch s = .ok (i, t)) :
    t = { s with pc := t.pc, events := t.events } := by
  obtain ⟨⟨b0, s1⟩, h1, h⟩ := bind_eq_ok.1 h
  have e1 := fetchByte_spec h1
  simp only at h
  split at h
  · obtain ⟨⟨b1, s2⟩, h2, h⟩ := bind_eq_ok.1 h
    cases h
    rw [fetchByte_spec h2, e1]
  · obtain ⟨⟨b1, s2⟩, h2, h⟩ := bind_eq_ok.1 h
    obtain ⟨⟨b2, s3⟩, h3, h⟩ := bind_eq_ok.1 h
    cases h
    rw [fetchByte_spec h3, fetchByte_spec h2, e1]
  · cases h
    rw [e1]

/-- The arbiter does nothing, or clears a line and enters its handler (60_exceptions.md R484). -/
theorem interruptCheck_cases {s t : State} (h : interruptCheck s = .ok t) :
    t = s ∨ ∃ u vector, (u = { s with nmi := false } ∨ u = { s with irq := false }) ∧
      takeInterrupt false u.pc vector u = .ok t := by
  unfold interruptCheck at h
  split at h
  · exact .inr ⟨_, _, .inl rfl, h⟩
  · split at h
    · exact .inr ⟨_, _, .inr rfl, h⟩
    · cases h; exact .inl rfl

/-- What the start of a step keeps. -/
theorem beginStep_keeps {P : State → Prop} {s u : State} {i : Instr} (h : beginStep s = .ok (i, u))
    (hs : P { s with trap := false })
    (hlines : ∀ v : State, P v → P { v with nmi := false } ∧ P { v with irq := false })
    (hentry : ∀ v w : State, Changes .brk v w → P v → P w)
    (hfetch : ∀ (v : State) pc events, P v → P { v with pc := pc, events := events }) : P u := by
  obtain ⟨t, ht, h⟩ := bind_eq_ok.1 h
  rw [fetch_spec h]
  refine hfetch t _ _ ?_
  obtain rfl | ⟨v, vector, hv, hentered⟩ := interruptCheck_cases ht
  · exact hs
  · refine hentry v t ((works_takeInterrupt ..).2 t hentered) ?_
    obtain rfl | rfl := hv
    · exact (hlines _ hs).1
    · exact (hlines _ hs).2

/-- The tick changes the tokens and the record at most, the tokens to at most their cap. -/
theorem redBusTick_spec (s : State) :
    redBusTick s = { s with tokens := (redBusTick s).tokens, events := (redBusTick s).events } ∧
    (s.TokenInv → (redBusTick s).TokenInv) := by
  unfold redBusTick
  split
  · exact ⟨rfl, id⟩
  · exact ⟨rfl, fun _ => Nat.min_le_right ..⟩

/-- The end of a step changes the tokens, the wait, the IRQ line, the run loop and the record at most, and starts no run. -/
theorem endStep_spec (s : State) : endStep s = { s with
      tokens := (endStep s).tokens, waiting := (endStep s).waiting, irq := (endStep s).irq, running := (endStep s).running
      events := (endStep s).events } ∧
    (s.TokenInv → (endStep s).TokenInv) ∧ ((endStep s).running = true → s.running = true) := by
  obtain ⟨htick, htokens⟩ := redBusTick_spec s
  have hrunning : (redBusTick s).running = s.running := by rw [htick]
  unfold endStep
  simp only
  split
  · refine ⟨?_, htokens, fun h => by cases h⟩
    rw [htick]
  · split
    · refine ⟨?_, fun h => (Nat.sub_le ..).trans (htokens h), fun h => hrunning ▸ h⟩
      rw [wakeRelease, htick]
    · refine ⟨?_, htokens, fun h => hrunning ▸ h⟩
      rw [htick]

/-- A core step that answers begins, runs its instruction, counts and ends. -/
theorem coreStep_eq_next {s t : State} : coreStep s = .next t ↔
    ∃ i u v, beginStep s = .ok (i, u) ∧ exec i u = .next v ∧ t = endStep v.countStep := by
  unfold coreStep
  constructor
  · intro h
    split at h
    · cases h
    next i u hb =>
      split at h <;> cases h
      next v hv => exact ⟨i, u, v, hb, hv, rfl⟩
  · rintro ⟨i, u, v, hb, hv, rfl⟩
    simp only [hb, hv]

/-- The state whose core step a machine step runs: a wait with a token is released first (60_exceptions.md R490, R492). -/
def State.awake (s : State) : State := if s.waiting then wakeRelease s else s

theorem step_of_enabled {s : State} (h : s.Enabled) : step s = coreStep s.awake := by
  obtain ⟨hd, hh, hr, hw⟩ := h
  unfold step machineStep State.awake
  simp only [hd, hh, hr]
  cases hwait : s.waiting with
  | false => simp
  | true => simp [(hw hwait).ne']

/-- A step that answers is the core step of an enabled machine. -/
theorem step_eq_next {s t : State} (h : step s = .next t) : s.Enabled ∧ coreStep s.awake = .next t := by
  have henabled : s.Enabled := by
    unfold step machineStep at h
    split at h
    · cases h
    next hd =>
      split at h
      · cases h
      next hh =>
        split at h
        · cases h
        next hr =>
          refine ⟨by simpa using hd, by simpa using hh, by simpa using hr, fun hw => ?_⟩
          rw [if_pos hw] at h
          split at h
          · cases h
          next ht => exact Nat.pos_of_ne_zero ht
  exact ⟨henabled, step_of_enabled henabled ▸ h⟩

/-! ## Every enabled step answers -/

theorem awake_devices (s : State) : s.awake.devices = s.devices := by
  unfold State.awake; split <;> rfl

theorem endStep_devices (s : State) : (endStep s).devices = s.devices := by rw [(endStep_spec s).1]

theorem cover_congr {s t : State} (h : t.devices = s.devices) (hc : s.DevicesCover) : t.DevicesCover := by
  unfold State.DevicesCover at *
  rw [h]
  exact hc

/-- Settles O58: the start of a step answers on a covered platform, and so does the instruction it fetches. -/
theorem enabledStepAnswers : Obligations.EnabledStepAnswers := by
  unfold Obligations.EnabledStepAnswers
  intro s hcover henabled
  have hbegin := runs_beginStep s.awake
  have hcover' : s.awake.DevicesCover := cover_congr (awake_devices s) hcover
  obtain ⟨⟨i, u⟩, hu⟩ := hbegin.1.1 hcover'
  have hdu : u.devices = s.devices := (hbegin.2 _ hu).1.trans (awake_devices s)
  obtain ⟨v, hv⟩ := (everyInstructionCompletes i u).1 (cover_congr hdu hcover)
  obtain ⟨-, -, -, -, -, -, -, hdv, -⟩ := (exec_changes hv).machine
  have hd : (endStep v.countStep).devices = s.devices := (endStep_devices _).trans (hdv.trans hdu)
  refine ⟨endStep v.countStep, ?_, cover_congr hd hcover, by rw [hd]; exact henabled.1⟩
  rw [step_of_enabled henabled]
  exact coreStep_eq_next.2 ⟨i, u, v, hu, hv, rfl⟩

/-! ## The invariant -/

theorem Changes.inv {op : Op} {s t : State} (h : Changes op s t) (hs : s.Inv) : t.Inv ∧ t.params = s.params := by
  obtain ⟨hmode, htokens, hlaunch, hparams, hmem⟩ := hs
  obtain ⟨-, -, -, ht, -, hr, -, -, hp, hw⟩ := h.machine
  refine ⟨⟨h.mode hmode, ?_, ?_, ?_, h.memory hmem⟩, hp⟩
  · rw [State.TokenInv, ht]; exact htokens
  · rw [State.LaunchInv, hr, hw]; exact hlaunch
  · rw [hp]; exact hparams

theorem awake_inv {s : State} (h : s.Inv) : s.awake.Inv ∧ s.awake.params = s.params := by
  unfold State.awake
  split
  · obtain ⟨hmode, htokens, hrest⟩ := h
    exact ⟨⟨hmode, (Nat.sub_le ..).trans htokens, hrest⟩, rfl⟩
  · exact ⟨h, rfl⟩

theorem beginStep_inv {s u : State} {i : Instr} (h : beginStep s = .ok (i, u)) (hs : s.Inv) :
    u.Inv ∧ u.params = s.params :=
  beginStep_keeps (P := fun v => v.Inv ∧ v.params = s.params) h ⟨hs, rfl⟩ (fun _ hv => ⟨hv, hv⟩)
    (fun _ _ hc hv => ⟨(hc.inv hv.1).1, (hc.inv hv.1).2.trans hv.2⟩) (fun _ _ _ hv => hv)

theorem endStep_inv {s : State} (h : s.Inv) : (endStep s).Inv ∧ (endStep s).params = s.params := by
  obtain ⟨hmode, htokens, hlaunch, hparams, hmem⟩ := h
  obtain ⟨heq, htok, hrun⟩ := endStep_spec s
  have htok' := htok htokens
  refine ⟨⟨?_, htok', fun hr => ?_, ?_, ?_⟩, ?_⟩
  · rw [heq]; exact hmode
  · rw [heq]; exact hlaunch (hrun hr)
  · rw [heq]; exact hparams
  · rw [heq]; exact hmem
  · rw [heq]

theorem step_inv {s t : State} (hs : s.Inv) (h : step s = .next t) : t.Inv ∧ t.params = s.params := by
  obtain ⟨-, h⟩ := step_eq_next h
  obtain ⟨i, u, v, hu, hv, rfl⟩ := coreStep_eq_next.1 h
  obtain ⟨iawake, pawake⟩ := awake_inv hs
  obtain ⟨ibegin, pbegin⟩ := beginStep_inv hu iawake
  obtain ⟨iexec, pexec⟩ := (exec_changes hv).inv ibegin
  obtain ⟨iend, pend⟩ := endStep_inv (s := v.countStep) iexec
  exact ⟨iend, pend.trans (pexec.trans (pbegin.trans pawake))⟩

/-- Reset puts the machine into emulation mode with both widths 8 and both index registers zero. -/
theorem resetCore_inv {s : State} (h : s.Inv) : s.resetCore.Inv := by
  obtain ⟨-, htokens, -, hparams, hmem⟩ := h
  have h0 : hiByte 0 = 0 := by decide
  exact ⟨⟨fun _ => ⟨rfl, rfl⟩, fun _ => ⟨h0, h0⟩⟩, htokens, fun _ => rfl, hparams, hmem⟩

theorem hostMove_inv {m : HostMove} {s t : State} (hs : s.Inv) (h : hostMove m s = some t) :
    t.Inv ∧ t.params = s.params := by
  obtain ⟨hmode, htokens, hlaunch, hrest⟩ := hs
  cases m with
  | assertIrq | assertNmi => cases h; exact ⟨⟨hmode, htokens, hlaunch, hrest⟩, rfl⟩
  | signal => cases h; exact ⟨⟨hmode, Nat.min_le_right .., hlaunch, hrest⟩, rfl⟩
  | stop => cases h; exact ⟨⟨hmode, Nat.le_refl _, fun h => absurd h Bool.false_ne_true, hrest⟩, rfl⟩
  | reset =>
    simp only [hostMove] at h
    split at h <;> cases h
    exact ⟨resetCore_inv ⟨hmode, htokens, hlaunch, hrest⟩, rfl⟩
  | run =>
    simp only [hostMove] at h
    split at h <;> cases h
    next hr =>
      have hreset : s.wasReset = true := by simpa using (not_or.1 (Bool.or_eq_true_iff.not.1 hr)).2
      exact ⟨⟨hmode, htokens, fun _ => hreset, hrest⟩, rfl⟩
  | install slot p =>
    simp only [hostMove] at h
    split at h <;> cases h
    exact ⟨⟨hmode, htokens, hlaunch, hrest⟩, rfl⟩

/-- Settles O59: each part of a step keeps the invariant, the instruction because it changes what its operation may
change. -/
theorem stepKeepsInvariant : Obligations.StepKeepsInvariant := by
  unfold Obligations.StepKeepsInvariant
  exact ⟨fun _ _ hs h => step_inv hs h, fun _ _ _ hs h => hostMove_inv hs h⟩

/-! ## The count and the trap of a step -/

theorem beginStep_counts {s u : State} {i : Instr} (h : beginStep s = .ok (i, u)) : u.steps = s.steps ∧ u.trap = false := by
  refine beginStep_keeps (P := fun v => v.steps = s.steps ∧ v.trap = false) h ⟨rfl, rfl⟩ (fun _ hv => ⟨hv, hv⟩)
    (fun v w hc hv => ?_) (fun _ _ _ hv => hv)
  obtain ⟨-, -, hsteps, -⟩ := hc.machine
  have htrap : w.trap = v.trap := hc.kept .trap (by decide)
  exact ⟨hsteps.trans hv.1, htrap.trans hv.2⟩

/-- The illegal opcode sets the trap, and no other instruction does. -/
theorem exec_trap {i : Instr} {s t : State} (h : exec i s = .next t) (hs : s.trap = false) :
    t.trap = true ↔ i = .illegal := by
  constructor
  · intro ht
    have hne : t.trap ≠ s.trap := by simp [ht, hs]
    exact eq_illegal_of_op (List.mem_singleton.1 ((exec_changes h).writes .trap hne))
  · rintro rfl
    cases h
    rfl

/-- Settles O55: the start of a step clears the trap and no part of the step but its instruction sets it. -/
theorem stepCountsAndTraps : Obligations.StepCountsAndTraps := by
  unfold Obligations.StepCountsAndTraps
  intro s t h
  obtain ⟨-, h⟩ := step_eq_next h
  obtain ⟨i, u, v, hu, hv, rfl⟩ := coreStep_eq_next.1 h
  obtain ⟨hsteps, htrap⟩ := beginStep_counts hu
  obtain ⟨-, -, hvsteps, -⟩ := (exec_changes hv).machine
  have hawake : s.awake.steps = s.steps := by unfold State.awake; split <;> rfl
  have hend := (endStep_spec v.countStep).1
  constructor
  · rw [hend]
    exact congrArg (· + 1) (hvsteps.trans (hsteps.trans hawake))
  · have htrap' : (endStep v.countStep).trap = v.trap := by rw [hend]; rfl
    rw [htrap', exec_trap hv htrap]
    constructor
    · rintro rfl; exact ⟨u, hu⟩
    · rintro ⟨u', hu'⟩
      rw [← State.awake, hu] at hu'
      cases hu'
      rfl

end Sys2Proof.Machine
end

section
/-! PROOFS. The bus and the addressing modes (20_memory.md, 40_addressing.md): where a transaction goes, a word in RAM, and
the effective addresses. -/

namespace Sys2Proof.Machine

/-! ## Where a transaction goes -/

section Dispatch

variable {s : State} {a : Word} {dv : Device}

theorem inWindow_iff : s.inWindow a = true ↔ s.rbWindow.toNat ≤ a.toNat ∧ a.toNat ≤ s.rbWindow.toNat + 255 :=
  decide_eq_true_iff

theorem busTarget_of_window (h : s.rbWindow.toNat ≤ a.toNat ∧ a.toNat ≤ s.rbWindow.toNat + 255) :
    s.busTarget a = .redBus := by
  rw [State.busTarget, if_pos (inWindow_iff.2 h)]

/-- A local address is the distance from the start of the window (20_memory.md R93). -/
theorem localAddress_of_window (h : s.rbWindow.toNat ≤ a.toNat ∧ a.toNat ≤ s.rbWindow.toNat + 255) :
    s.localAddress a = BitVec.ofNat 8 (a.toNat - s.rbWindow.toNat) := by
  apply BitVec.eq_of_toNat_eq
  simp only [State.localAddress, loByte, BitVec.toNat_setWidth, BitVec.toNat_ofNat, BitVec.toNat_sub]
  have := a.isLt
  omega

/-- Nothing answers on the RedBus while it is disabled or its active slot is empty (20_memory.md R91, R92). -/
theorem redBusRead_silent (h : s.rbEnabled = false ∨ s.activePeripheral = none) : redBusRead a s = (0, s) := by
  unfold redBusRead
  obtain h | h := h
  · simp [h]
  · split
    · rw [h]
    · rfl

theorem redBusRead_active {p : Peripheral} (he : s.rbEnabled = true) (hp : s.activePeripheral = some p) :
    redBusRead a s = s.ask (.peripheralRead p (s.localAddress a)) := by
  simp only [redBusRead, he, hp, if_true]

theorem redBusWrite_silent (v : Byte) (h : s.rbEnabled = false ∨ s.activePeripheral = none) : redBusWrite a v s = s := by
  unfold redBusWrite
  obtain h | h := h
  · simp [h]
  · split
    · rw [h]
    · rfl

theorem redBusWrite_active {p : Peripheral} (v : Byte) (he : s.rbEnabled = true) (hp : s.activePeripheral = some p) :
    redBusWrite a v s = s.tell (.peripheralWrite p (s.localAddress a) v) := by
  simp only [redBusWrite, he, hp, if_true]

section NearestDevice

variable (hout : ¬ (s.rbWindow.toNat ≤ a.toNat ∧ a.toNat ≤ s.rbWindow.toNat + 255))
  (hdv : nearestDevice s.devices a = some dv)
include hout hdv

/-- Outside the window a transaction goes to the nearest device, if it reaches so far (20_memory.md R82). -/
theorem busTarget_past_device (hstop : dv.stop < a) : s.busTarget a = .unmapped := by
  simp only [State.busTarget, mt inWindow_iff.1 hout, hdv, hstop, if_true]
  rfl

theorem busTarget_of_ram_device (hstop : a ≤ dv.stop) (hkind : dv.kind = .ram) : s.busTarget a = .ram := by
  simp only [State.busTarget, mt inWindow_iff.1 hout, hdv, BitVec.not_lt.2 hstop, hkind, if_false]
  rfl

theorem busTarget_of_external_device {id : Nat} (hstop : a ≤ dv.stop) (hkind : dv.kind = .external id) :
    s.busTarget a = .external id (a - dv.start) := by
  simp only [State.busTarget, mt inWindow_iff.1 hout, hdv, BitVec.not_lt.2 hstop, hkind, if_false]
  rfl

end NearestDevice

theorem busTarget_of_no_device (hout : ¬ (s.rbWindow.toNat ≤ a.toNat ∧ a.toNat ≤ s.rbWindow.toNat + 255))
    (h : ∀ dv ∈ s.devices, a < dv.start) : s.busTarget a = .unmapped := by
  have hnone : nearestDevice s.devices a = none := nearestDevice_eq_none.2 fun dv hd => BitVec.not_le.2 (h dv hd)
  rw [State.busTarget, if_neg (mt inWindow_iff.1 hout), hnone]

end Dispatch

theorem busRead_unmapped {a : Word} {s : State} (h : s.busTarget a = .unmapped) :
    busRead a s = .error (.busUnmapped a) := by
  rw [busRead, h]

theorem busRead_external {a offset : Word} {s : State} {id : Nat} (h : s.busTarget a = .external id offset) :
    busRead a s = .ok (s.ask (.deviceRead id offset)) := by
  rw [busRead, h]

theorem busWrite_unmapped {a : Word} {s : State} (v : Byte) (h : s.busTarget a = .unmapped) :
    busWrite a v s = .error (.busUnmapped a) := by
  rw [busWrite, h]

theorem busWrite_external {a offset : Word} {s : State} {id : Nat} (v : Byte) (h : s.busTarget a = .external id offset) :
    busWrite a v s = .ok (s.tell (.deviceWrite id offset v)) := by
  rw [busWrite, h]

theorem busRead_redBus {a : Word} {s : State} (h : s.busTarget a = .redBus) : busRead a s = .ok (redBusRead a s) := by
  rw [busRead, h]

theorem busWrite_redBus {a : Word} {s : State} (v : Byte) (h : s.busTarget a = .redBus) :
    busWrite a v s = .ok (redBusWrite a v s) := by
  rw [busWrite, h]

/-- Settles O6: the target of the address, and what a read of each target answers. -/
theorem busReadFollowsDispatch : Obligations.BusReadFollowsDispatch := by
  unfold Obligations.BusReadFollowsDispatch
  intro s a
  refine ⟨fun hin => ?_, fun hout hdistinct => ⟨fun dv hdv hle hgreatest => ?_, fun h => ?_⟩⟩
  · have hread := busRead_redBus (busTarget_of_window hin)
    refine ⟨fun h => ?_, fun p he hp => ?_⟩
    · rw [hread, redBusRead_silent h]
    · rw [hread, redBusRead_active he hp, localAddress_of_window hin]
      rfl
  · have hnearest := nearestDevice_of_greatest hdistinct hdv hle hgreatest
    refine ⟨fun hstop => ?_, fun hstop hkind => ?_, fun id hstop hkind => ?_⟩
    · exact busRead_unmapped (busTarget_past_device hout hnearest hstop)
    · exact busRead_ram (busTarget_of_ram_device hout hnearest hstop hkind)
    · exact busRead_external (busTarget_of_external_device hout hnearest hstop hkind)
  · exact busRead_unmapped (busTarget_of_no_device hout h)

/-- Settles O7: the target of the address, and what a write to each target changes. -/
theorem busWriteFollowsDispatch : Obligations.BusWriteFollowsDispatch := by
  unfold Obligations.BusWriteFollowsDispatch
  intro s a v
  refine ⟨fun hin => ?_, fun hout hdistinct => ⟨fun dv hdv hle hgreatest => ?_, fun h => ?_⟩⟩
  · have hwrite := busWrite_redBus v (busTarget_of_window hin)
    refine ⟨fun h => ?_, fun p he hp => ?_⟩
    · rw [hwrite, redBusWrite_silent v h]
    · rw [hwrite, redBusWrite_active v he hp, localAddress_of_window hin]
      rfl
  · have hnearest := nearestDevice_of_greatest hdistinct hdv hle hgreatest
    refine ⟨fun hstop => ?_, fun hstop hkind => ?_, fun id hstop hkind => ?_⟩
    · exact busWrite_unmapped v (busTarget_past_device hout hnearest hstop)
    · have hram := busTarget_of_ram_device hout hnearest hstop hkind
      exact ⟨_, busWrite_ram v hram, rfl, fun hwf b => Memory.read_write hwf a b v⟩
    · exact busWrite_external v (busTarget_of_external_device hout hnearest hstop hkind)
  · exact busWrite_unmapped v (busTarget_of_no_device hout h)

/-! ## A word in RAM -/

/-- A 16-bit read of RAM takes its bytes low first. -/
theorem memRead16_ram {a : Word} {s : State} (h0 : s.busTarget a = .ram) (h1 : s.busTarget (a + 1) = .ram) :
    memRead16 a s = .ok (mkWord (Memory.read s.mem a.toNat) (Memory.read s.mem (a + 1).toNat), s) := by
  simp only [memRead16, busRead_ram h0, busRead_ram h1, ok_bind]
  rfl

/-- A 16-bit write to RAM changes memory alone. -/
theorem memWrite16_ram {a : Word} {s : State} (v : Word) (h0 : s.busTarget a = .ram) (h1 : s.busTarget (a + 1) = .ram) :
    memWriteW .w16 a v s = .ok { s with
      mem := Memory.write (Memory.write s.mem a.toNat (loByte v)) (a + 1).toNat (hiByte v) } := by
  have hlow := busWrite_ram (loByte v) h0
  have h1' := (busTarget_of_busOnly (busWrite_busOnly hlow) (a + 1)).trans h1
  rw [memWriteW, hlow, ok_bind, busWrite_ram _ h1']

/-- Settles O8: the two bytes of the word go to RAM low first, and the read of the word takes them back. -/
theorem wordInRamIsLittleEndian : Obligations.WordInRamIsLittleEndian := by
  unfold Obligations.WordInRamIsLittleEndian
  intro s a v hwf h0 h1
  have ht := memWrite16_ram v h0 h1
  have hlow := memWriteW_low ht hwf h0
  have hhigh := memWriteW_high ht hwf h1
  have htarget := busTarget_of_busOnly (memWriteW_busOnly ht)
  refine ⟨_, ht, rfl, hlow, hhigh, memWriteW_other ht hwf, ?_⟩
  rw [memReadW, memRead16_ram ((htarget a).trans h0) ((htarget (a + 1)).trans h1), hlow, hhigh, mkWord_loByte_hiByte]

/-! ## Effective addresses -/

theorem zext_ofNat (n : Nat) : zext (BitVec.ofNat 8 n) = BitVec.ofNat 16 (n % 256) := by
  apply BitVec.eq_of_toNat_eq
  simp [zext]

/-- An index is added to a zero-page operand modulo 256 (40_addressing.md R175, R176, R180). -/
theorem add_loByte (b : Byte) (v : Word) : b + loByte v = BitVec.ofNat 8 (b.toNat + v.toNat) := by
  apply BitVec.eq_of_toNat_eq
  simp [loByte]

theorem add_eq_ofNat {n : Nat} (a b : BitVec n) : a + b = BitVec.ofNat n (a.toNat + b.toNat) := by
  apply BitVec.eq_of_toNat_eq
  simp

/-- An offset in a stack window wraps inside it (40_addressing.md R187, R189). -/
theorem window_address (base : Word) (n : Nat) :
    base + zext (BitVec.ofNat 8 n) = BitVec.ofNat 16 (base.toNat + n % 256) := by
  rw [zext_ofNat, add_eq_ofNat, BitVec.toNat_ofNat]
  apply BitVec.eq_of_toNat_eq
  simp

/-- Settles O9: the sums of the modes in numbers. -/
theorem directAddresses : Obligations.DirectAddresses := by
  unfold Obligations.DirectAddresses
  intro s b w
  refine ⟨rfl, ?_, ?_, rfl, ?_, ?_, ?_, ?_⟩
  · rw [effAddr, add_loByte, zext_ofNat]
  · rw [effAddr, add_loByte, zext_ofNat]
  · rw [effAddr, add_eq_ofNat]
  · rw [effAddr, add_eq_ofNat]
  · rw [effAddr, State.dstackAddr, add_eq_ofNat s.sp, window_address]
  · rw [effAddr, State.rstackAddr, add_eq_ofNat s.r, window_address]

theorem ofNat_add_one (n : Nat) : BitVec.ofNat 8 n + 1 = BitVec.ofNat 8 (n + 1) := by
  apply BitVec.eq_of_toNat_eq
  simp

/-- A pointer in page 0 is read from an offset and the next, both modulo 256 (00_scope.md R14). -/
theorem zpPtr_ok {n : Nat} {s t u : State} {lo hi : Byte} (h0 : busRead (BitVec.ofNat 16 (n % 256)) s = .ok (lo, t))
    (h1 : busRead (BitVec.ofNat 16 ((n + 1) % 256)) t = .ok (hi, u)) :
    zpPtr (BitVec.ofNat 8 n) s = .ok (mkWord lo hi, u) := by
  simp only [zpPtr, ofNat_add_one, zext_ofNat, h0, h1, ok_bind]
  rfl

/-- A pointer in a stack window is read from an offset and the next, both inside the window (R188, R190). -/
theorem windowPtr_ok {addr : Byte → Word} {base : Word} {n : Nat} {s t u : State} {lo hi : Byte}
    (haddr : ∀ o, addr o = base + zext o) (h0 : busRead (BitVec.ofNat 16 (base.toNat + n % 256)) s = .ok (lo, t))
    (h1 : busRead (BitVec.ofNat 16 (base.toNat + (n + 1) % 256)) t = .ok (hi, u)) :
    windowPtr addr (BitVec.ofNat 8 n) s = .ok (mkWord lo hi, u) := by
  simp only [windowPtr, ofNat_add_one, haddr, window_address, h0, h1, ok_bind]
  rfl

/-- Settles O10: each mode reads its pointer in page 0 or in a stack window and adds Y where it is indexed after. -/
theorem pointerAddresses : Obligations.PointerAddresses := by
  unfold Obligations.PointerAddresses
  intro s t u b lo hi
  refine ⟨fun n h0 h1 => ⟨?_, ?_⟩, fun h0 h1 => ?_, fun h0 h1 => ?_⟩
  · rintro rfl
    rw [effAddr, add_loByte, zpPtr_ok h0 h1]
  · rintro rfl
    have hptr : zpPtr b s = .ok (mkWord lo hi, u) := by simpa using zpPtr_ok h0 h1
    exact ⟨by rw [effAddr, hptr], by rw [effAddr, hptr, ok_bind]; rfl⟩
  · rw [effAddr, add_eq_ofNat s.sp, windowPtr_ok (addr := s.dstackAddr) (fun _ => rfl) h0 h1, ok_bind]
    rfl
  · rw [effAddr, add_eq_ofNat s.r, windowPtr_ok (addr := s.rstackAddr) (fun _ => rfl) h0 h1, ok_bind]
    rfl

end Sys2Proof.Machine
end

section
/-! PROOFS. Arithmetic and bit tests (41_arith_logic.md): ADC and SBC in binary and in decimal, BIT, TSB and TRB. -/

namespace Sys2Proof.Machine

/-! ## ADC and SBC: an ALU result put into the accumulator -/

/-- What ADC computes of an operand (R213). -/
def State.adcResult (s : State) (m : Word) : AluResult :=
  if s.fD then addDec s.wM (s.acc s.wM) m s.fC else addBin s.wM (s.acc s.wM) m s.fC

/-- What SBC computes of an operand (R216). -/
def State.sbcResult (s : State) (m : Word) : AluResult :=
  if s.fD then subDec s.wM (s.acc s.wM) m s.fC else subBin s.wM (s.acc s.wM) m s.fC

theorem putAlu_w8 (s : State) (q : AluResult) :
    s.putAlu .w8 q = { s.accResult8 (loByte q.value) with fC := q.carry, fV := q.overflow } := by
  simp [State.putAlu, State.setAcc, State.setNZ, State.accResult8, cut_w8, beq_eq_decide]

theorem putAlu_w16 (s : State) (q : AluResult) :
    s.putAlu .w16 q = { s.accResult16 q.value with fC := q.carry, fV := q.overflow } := by
  simp [State.putAlu, State.setAcc, State.setNZ, State.accResult16, beq_eq_decide]

section AluWidths

variable {i : Instr} {src : Src} {s t : State} {m : Word} (hs : i.operand.src? = some src)
include hs

theorem exec_adc_eq (ho : i.op = .adc) (h : readSrc s.wM src s = .ok (m, t)) :
    exec i s = .next ({ s with events := t.events }.putAlu s.wM (s.adcResult m)) := by
  rw [exec_adc s ho hs, opAdc_eq, withOperand_ok _ h, finish_ok]
  rfl

theorem exec_sbc_eq (ho : i.op = .sbc) (h : readSrc s.wM src s = .ok (m, t)) :
    exec i s = .next ({ s with events := t.events }.putAlu s.wM (s.sbcResult m)) := by
  rw [exec_sbc s ho hs, opSbc_eq, withOperand_ok _ h, finish_ok]
  rfl

end AluWidths

section BinaryWidths

variable {s : State} {m : Word} (hD : s.fD = false)
include hD

theorem adcResult_binary_w8 (hM : s.fM = true) (b : Byte) :
    s.adcResult (zext b) = addBin .w8 (zext s.al) (zext b) s.fC := by
  rw [State.adcResult, if_neg (ne_true_of_eq_false hD), wM_of_fM hM, acc_w8]

theorem adcResult_binary_w16 (hM : s.fM = false) : s.adcResult m = addBin .w16 (mkWord s.al s.ah) m s.fC := by
  rw [State.adcResult, if_neg (ne_true_of_eq_false hD), wM_of_not_fM hM, acc_w16]

theorem sbcResult_binary_w8 (hM : s.fM = true) (b : Byte) :
    s.sbcResult (zext b) = subBin .w8 (zext s.al) (zext b) s.fC := by
  rw [State.sbcResult, if_neg (ne_true_of_eq_false hD), wM_of_fM hM, acc_w8]

theorem sbcResult_binary_w16 (hM : s.fM = false) : s.sbcResult m = subBin .w16 (mkWord s.al s.ah) m s.fC := by
  rw [State.sbcResult, if_neg (ne_true_of_eq_false hD), wM_of_not_fM hM, acc_w16]

end BinaryWidths

section Binary

variable {i : Instr} {src : Src} {s t : State} {m : Word} (hs : i.operand.src? = some src) (hD : s.fD = false)
include hs hD

theorem exec_adc_w8 (ho : i.op = .adc) (hM : s.fM = true) (h : readSrc .w8 src s = .ok (m, t)) :
    let sum := s.al.toNat + (loByte m).toNat + s.fC.toNat
    let r : Byte := BitVec.ofNat 8 sum
    exec i s = .next { s.accResult8 r with
      fC := decide (255 < sum), fV := decide (s.al.msb = (loByte m).msb ∧ r.msb ≠ s.al.msb), events := t.events } := by
  rw [exec_adc_eq hs ho (wM_of_fM hM ▸ h), readSrc_w8 h, adcResult_binary_w8 hD hM, addBin_w8, wM_of_fM hM, putAlu_w8,
    loByte_zext, loByte_zext]
  rfl

theorem exec_adc_w16 (ho : i.op = .adc) (hM : s.fM = false) (h : readSrc .w16 src s = .ok (m, t)) :
    let a := mkWord s.al s.ah
    let sum := a.toNat + m.toNat + s.fC.toNat
    let r : Word := BitVec.ofNat 16 sum
    exec i s = .next { s.accResult16 r with
      fC := decide (65535 < sum), fV := decide (a.msb = m.msb ∧ r.msb ≠ a.msb), events := t.events } := by
  rw [exec_adc_eq hs ho (wM_of_not_fM hM ▸ h), adcResult_binary_w16 hD hM, addBin_w16, wM_of_not_fM hM, putAlu_w16]
  rfl

theorem exec_sbc_w8 (ho : i.op = .sbc) (hM : s.fM = true) (h : readSrc .w8 src s = .ok (m, t)) :
    let borrow := 1 - s.fC.toNat
    let r : Byte := s.al - loByte m - BitVec.ofNat 8 borrow
    exec i s = .next { s.accResult8 r with
      fC := decide ((loByte m).toNat + borrow ≤ s.al.toNat)
      fV := decide (s.al.msb ≠ (loByte m).msb ∧ r.msb ≠ s.al.msb), events := t.events } := by
  rw [exec_sbc_eq hs ho (wM_of_fM hM ▸ h), readSrc_w8 h, sbcResult_binary_w8 hD hM, subBin_w8, wM_of_fM hM, putAlu_w8,
    loByte_zext, loByte_zext]
  rfl

theorem exec_sbc_w16 (ho : i.op = .sbc) (hM : s.fM = false) (h : readSrc .w16 src s = .ok (m, t)) :
    let a := mkWord s.al s.ah
    let borrow := 1 - s.fC.toNat
    let r : Word := a - m - BitVec.ofNat 16 borrow
    exec i s = .next { s.accResult16 r with
      fC := decide (m.toNat + borrow ≤ a.toNat), fV := decide (a.msb ≠ m.msb ∧ r.msb ≠ a.msb), events := t.events } := by
  rw [exec_sbc_eq hs ho (wM_of_not_fM hM ▸ h), sbcResult_binary_w16 hD hM, subBin_w16, wM_of_not_fM hM, putAlu_w16]
  rfl

end Binary

/-- Settles O12: ADC puts the binary sum of its operands, at the width that fM selects. -/
theorem adcBinaryResult : Obligations.AdcBinaryResult := by
  unfold Obligations.AdcBinaryResult
  exact fun i src s ho hs hD => ⟨fun hM m t h => exec_adc_w8 hs hD ho hM h, fun hM m t h => exec_adc_w16 hs hD ho hM h⟩

/-- Settles O13: SBC puts the binary difference of its operands, at the width that fM selects. -/
theorem sbcBinaryResult : Obligations.SbcBinaryResult := by
  unfold Obligations.SbcBinaryResult
  exact fun i src s ho hs hD => ⟨fun hM m t h => exec_sbc_w8 hs hD ho hM h, fun hM m t h => exec_sbc_w16 hs hD ho hM h⟩

/-! ## The overflow flag, read as a signed range -/

theorem toInt_byte (a : Byte) : a.toInt = if a.msb then (a.toNat : Int) - 256 else a.toNat := by
  rw [BitVec.toInt_eq_msb_cond]
  rfl

theorem msb_byte (a : Byte) : a.msb = decide (128 ≤ a.toNat) := BitVec.msb_eq_decide a

/-- The byte of a sum, and its overflow, are those of the signed sum (R214). -/
theorem add_overflow_signed (a b : Byte) (c : Bool) :
    let sum := a.toNat + b.toNat + c.toNat
    let exact_ := a.toInt + b.toInt + (c.toNat : Int)
    (BitVec.ofNat 8 sum = BitVec.ofInt 8 exact_) ∧
      (decide (a.msb = b.msb ∧ (BitVec.ofNat 8 sum).msb ≠ a.msb) = true ↔ exact_ < -128 ∨ 127 < exact_) := by
  have ha := a.isLt
  have hb := b.isLt
  have hc := c.toNat_le
  simp only [toInt_byte, msb_byte, BitVec.toNat_ofNat, decide_eq_true_eq]
  constructor
  · apply BitVec.eq_of_toNat_eq
    simp only [BitVec.toNat_ofNat, BitVec.toNat_ofInt]
    split <;> split <;> omega
  · by_cases h1 : 128 ≤ a.toNat <;> by_cases h2 : 128 ≤ b.toNat <;> simp only [h1, h2, decide_true, decide_false] <;>
      simp <;> omega

/-- The byte of a difference, and its overflow, are those of the signed difference (R217). -/
theorem sub_overflow_signed (a b : Byte) (c : Bool) :
    let r := a - b - BitVec.ofNat 8 (1 - c.toNat)
    let exact_ := a.toInt - b.toInt - (1 - (c.toNat : Int))
    r = BitVec.ofInt 8 exact_ ∧ (decide (a.msb ≠ b.msb ∧ r.msb ≠ a.msb) = true ↔ exact_ < -128 ∨ 127 < exact_) := by
  have ha := a.isLt
  have hb := b.isLt
  have hc := c.toNat_le
  simp only [toInt_byte, msb_byte, BitVec.toNat_ofNat, BitVec.toNat_sub, decide_eq_true_eq]
  constructor
  · apply BitVec.eq_of_toNat_eq
    simp only [BitVec.toNat_ofNat, BitVec.toNat_ofInt, BitVec.toNat_sub]
    split <;> split <;> omega
  · by_cases h1 : 128 ≤ a.toNat <;> by_cases h2 : 128 ≤ b.toNat <;> simp only [h1, h2, decide_true, decide_false] <;>
      simp <;> omega

/-- Settles O14: the results of ADC and SBC at width 8, with their overflow read as a signed range. -/
theorem overflowMeansSignedOutOfRange : Obligations.OverflowMeansSignedOutOfRange := by
  unfold Obligations.OverflowMeansSignedOutOfRange
  intro i src s m t hs hD hM h
  exact ⟨fun ho => ⟨_, exec_adc_w8 hs hD ho hM h, add_overflow_signed s.al (loByte m) s.fC⟩,
    fun ho => ⟨_, exec_sbc_w8 hs hD ho hM h, sub_overflow_signed s.al (loByte m) s.fC⟩⟩

/-! ## Decimal ADC and SBC, digit by digit -/

theorem bits_div_four (w : Width) : 16 ^ (w.bits / 4) = 2 ^ w.bits := by cases w <;> rfl

/-- The lowest digits of a number do not depend on the higher ones. -/
theorem mod_digit {n k : Nat} (hk : k < n) (r : Nat) : r % 16 ^ n / 16 ^ k % 16 = r / 16 ^ k % 16 := by
  obtain ⟨j, rfl⟩ := Nat.exists_eq_add_of_lt hk
  rw [Nat.add_assoc, Nat.pow_add, Nat.mod_mul_right_div_self, Nat.mod_mod_of_dvd]
  exact dvd_pow_self 16 (Nat.succ_ne_zero j)

/-- A word cut to a width, in numbers, is its lowest digits. -/
theorem cut_eq_ofNat (w : Width) (r : Word) : cut w r = BitVec.ofNat 16 (r.toNat % 16 ^ (w.bits / 4)) := by
  apply BitVec.eq_of_toNat_eq
  rw [toNat_cut, bits_div_four, BitVec.toNat_ofNat]
  exact (Nat.mod_eq_of_lt ((Nat.mod_le ..).trans_lt r.isLt)).symm

/-- Decimal addition, from any numbering of its carries and of the digits of its result (R215). -/
theorem addDec_eq {w : Width} {a m r : Word} {c : Nat → Bool}
    (h : let d := fun k => digit k a + digit k m + (c k).toNat
      ∀ k < w.bits / 4, c (k + 1) = decide (15 < if 9 < d k then d k + 6 else d k) ∧
        digit k r = (if 9 < d k then d k + 6 else d k) % 16) :
    addDec w a m (c 0) = ⟨cut w r, c (w.bits / 4), false⟩ := by
  have hlt : r.toNat % 16 ^ (w.bits / 4) < 16 ^ (w.bits / 4) := Nat.mod_lt _ (Nat.pow_pos (by decide))
  have hdigits := addDigits_eq (a := a.toNat) (m := m.toNat) hlt fun k hk => by
    rw [mod_digit hk]
    exact h k hk
  rw [addDec, hdigits, cut_eq_ofNat]

/-- Decimal subtraction, from any numbering of its borrows and of the digits of its result (R218). -/
theorem subDec_eq {w : Width} {a m r : Word} {b : Nat → Bool} {c : Bool} (hc : b 0 = !c)
    (h : let d := fun k => (digit k a : Int) - (digit k m : Int) - ((b k).toNat : Int)
      ∀ k < w.bits / 4, b (k + 1) = decide (d k < 0) ∧ (digit k r : Int) = (if d k < 0 then d k + 10 else d k) % 16) :
    subDec w a m c = ⟨cut w r, !b (w.bits / 4), false⟩ := by
  have hlt : r.toNat % 16 ^ (w.bits / 4) < 16 ^ (w.bits / 4) := Nat.mod_lt _ (Nat.pow_pos (by decide))
  have hdigits := subDigits_eq (a := a.toNat) (m := m.toNat) hlt fun k hk => by
    rw [mod_digit hk]
    exact h k hk
  rw [subDec, ← hc, hdigits, cut_eq_ofNat]

theorem adcResult_decimal {s : State} (hD : s.fD = true) (m : Word) :
    s.adcResult m = addDec s.wM (s.acc s.wM) m s.fC := if_pos hD

theorem sbcResult_decimal {s : State} (hD : s.fD = true) (m : Word) :
    s.sbcResult m = subDec s.wM (s.acc s.wM) m s.fC := if_pos hD

/-- Settles O15: the digits that the statement numbers are those of the digit loop. -/
theorem adcDecimalDigits : Obligations.AdcDecimalDigits := by
  unfold Obligations.AdcDecimalDigits
  intro i src s m t c r ho hs hD h hdigits
  obtain ⟨h0, hdigits⟩ := hdigits
  have hexec := exec_adc_eq hs ho h
  rw [adcResult_decimal hD, ← h0, addDec_eq hdigits] at hexec
  refine ⟨fun hM => ?_, fun hM => ?_⟩
  · rw [hexec, wM_of_fM hM, putAlu_w8, cut_w8, loByte_zext]
    rfl
  · rw [hexec, wM_of_not_fM hM, putAlu_w16]
    rfl

/-- Settles O16: the digits that the statement numbers are those of the digit loop. -/
theorem sbcDecimalDigits : Obligations.SbcDecimalDigits := by
  unfold Obligations.SbcDecimalDigits
  intro i src s m t b r ho hs hD h hdigits
  obtain ⟨h0, hdigits⟩ := hdigits
  have hexec := exec_sbc_eq hs ho h
  rw [sbcResult_decimal hD, subDec_eq h0 hdigits] at hexec
  refine ⟨fun hM => ?_, fun hM => ?_⟩
  · rw [hexec, wM_of_fM hM, putAlu_w8, cut_w8, loByte_zext]
    rfl
  · rw [hexec, wM_of_not_fM hM, putAlu_w16]
    rfl

/-! ## The value of decimal digits -/

/-- The value of the lowest `n` decimal digits of a number, from the lowest digit up. -/
def decimalValue : (n : Nat) → Nat → Nat
  | 0, _ => 0
  | n + 1, a => a % 16 + 10 * decimalValue n (a / 16)

/-- Whether the lowest `n` digits of a number are decimal digits. -/
def DecimalDigits (n a : Nat) : Prop := ∀ k < n, a / 16 ^ k % 16 ≤ 9

theorem decimalValue_succ_top (n a : Nat) : decimalValue (n + 1) a = decimalValue n a + a / 16 ^ n % 16 * 10 ^ n := by
  induction n generalizing a with
  | zero => simp [decimalValue]
  | succ n ih =>
    rw [decimalValue, ih, decimalValue, Nat.pow_succ', ← Nat.div_div_eq_div_mul]
    ring

theorem bcdValue_eq (n : Nat) (v : Word) : bcdValue n v = decimalValue n v.toNat := by
  induction n with
  | zero => rfl
  | succ n ih => rw [bcdValue, ih, decimalValue_succ_top, digit]

theorem decimalDigits_succ {n a : Nat} : DecimalDigits (n + 1) a ↔ a % 16 ≤ 9 ∧ DecimalDigits n (a / 16) := by
  constructor
  · refine fun h => ⟨by simpa using h 0 (Nat.succ_pos n), fun k hk => ?_⟩
    have := h (k + 1) (Nat.succ_lt_succ hk)
    rwa [Nat.pow_succ', ← Nat.div_div_eq_div_mul] at this
  · rintro ⟨h0, h⟩ k hk
    cases k with
    | zero => simpa using h0
    | succ k =>
      rw [Nat.pow_succ', ← Nat.div_div_eq_div_mul]
      exact h k (Nat.lt_of_succ_lt_succ hk)

/-- One digit of a decimal sum: a decimal digit and its carry (R215, decision D48). -/
theorem decimal_sum_digit : ∀ d ≤ 19,
    (if d > 9 then d + 6 else d) % 16 + 10 * (decide ((if d > 9 then d + 6 else d) > 15)).toNat = d ∧
      (if d > 9 then d + 6 else d) % 16 ≤ 9 := by decide

/-- One digit of a decimal difference: a decimal digit and its borrow (R218). -/
theorem decimal_difference_digit {d : Int} (hlow : -10 ≤ d) (hhigh : d ≤ 9) :
    (((if decide (d < 0) then d + 10 else d) % 16).toNat : Int) = d + 10 * ((decide (d < 0)).toNat : Int) ∧
      ((if decide (d < 0) then d + 10 else d) % 16).toNat ≤ 9 := by
  by_cases h : d < 0
  · simp only [h, decide_true, if_true, Bool.toNat_true]
    omega
  · simp only [h, decide_false, Bool.false_eq_true, if_false, Bool.toNat_false]
    omega

/-- A number whose lowest digit is decimal and whose other digits are. -/
theorem decimalDigits_cons {n low high : Nat} (hlow : low ≤ 9) (hhigh : DecimalDigits n high) :
    DecimalDigits (n + 1) (low + 16 * high) := by
  refine decimalDigits_succ.2 ⟨by omega, ?_⟩
  rwa [show (low + 16 * high) / 16 = high by omega]

theorem decimalValue_cons {n low high : Nat} (hlow : low ≤ 9) :
    decimalValue (n + 1) (low + 16 * high) = low + 10 * decimalValue n high := by
  rw [decimalValue, show (low + 16 * high) % 16 = low by omega, show (low + 16 * high) / 16 = high by omega]

/-- The digit loop of addition, on decimal digits: decimal digits, and the sum up to the carry (R215). -/
theorem addDigits_decimal {n a m : Nat} (c : Bool) (ha : DecimalDigits n a) (hm : DecimalDigits n m) :
    DecimalDigits n (addDigits n a m c).1 ∧ (addDigits n a m c).1 < 16 ^ n ∧
      decimalValue n (addDigits n a m c).1 + 10 ^ n * (addDigits n a m c).2.toNat =
        decimalValue n a + decimalValue n m + c.toNat := by
  induction n generalizing a m c with
  | zero => simp [addDigits, DecimalDigits, decimalValue]
  | succ n ih =>
    obtain ⟨ha0, ha⟩ := decimalDigits_succ.1 ha
    obtain ⟨hm0, hm⟩ := decimalDigits_succ.1 hm
    have hc := c.toNat_le
    obtain ⟨hsum, hlow⟩ := decimal_sum_digit (a % 16 + m % 16 + c.toNat) (by omega)
    simp only [addDigits]
    generalize decide ((if a % 16 + m % 16 + c.toNat > 9 then a % 16 + m % 16 + c.toNat + 6
      else a % 16 + m % 16 + c.toNat) > 15) = carry at *
    generalize (if a % 16 + m % 16 + c.toNat > 9 then a % 16 + m % 16 + c.toNat + 6
      else a % 16 + m % 16 + c.toNat) % 16 = low at *
    obtain ⟨hdigits, hlt, hvalue⟩ := ih carry ha hm
    generalize addDigits n (a / 16) (m / 16) carry = q at *
    refine ⟨decimalDigits_cons hlow hdigits, by rw [Nat.pow_succ]; omega, ?_⟩
    rw [decimalValue_cons hlow, decimalValue, decimalValue, Nat.pow_succ']
    linarith

/-- The digit loop of subtraction, on decimal digits: decimal digits, and the difference up to the borrow (R218). -/
theorem subDigits_decimal {n a m : Nat} (b : Bool) (ha : DecimalDigits n a) (hm : DecimalDigits n m) :
    DecimalDigits n (subDigits n a m b).1 ∧ (subDigits n a m b).1 < 16 ^ n ∧
      decimalValue n (subDigits n a m b).1 + decimalValue n m + b.toNat =
        decimalValue n a + 10 ^ n * (subDigits n a m b).2.toNat := by
  induction n generalizing a m b with
  | zero => simp [subDigits, DecimalDigits, decimalValue]
  | succ n ih =>
    obtain ⟨ha0, ha⟩ := decimalDigits_succ.1 ha
    obtain ⟨hm0, hm⟩ := decimalDigits_succ.1 hm
    have hb := b.toNat_le
    simp only [subDigits]
    obtain ⟨d, hd⟩ : ∃ d : Int, ((a % 16 : Nat) : Int) - (m % 16 : Nat) - (b.toNat : Nat) = d := ⟨_, rfl⟩
    obtain ⟨hdiff, hlow⟩ := decimal_difference_digit (d := d) (by omega) (by omega)
    rw [hd]
    generalize ((if decide (d < 0) then d + 10 else d) % 16).toNat = low at *
    generalize decide (d < 0) = borrow at *
    obtain ⟨hdigits, hlt, hvalue⟩ := ih borrow ha hm
    generalize subDigits n (a / 16) (m / 16) borrow = q at *
    refine ⟨decimalDigits_cons hlow hdigits, by rw [Nat.pow_succ]; omega, ?_⟩
    have hdigit : low + m % 16 + b.toNat = a % 16 + 10 * borrow.toNat := by omega
    rw [decimalValue_cons hlow, decimalValue, decimalValue, Nat.pow_succ']
    linarith

theorem decimalDigits_of_isBcd {n : Nat} {v : Word} (h : IsBcd n v) : DecimalDigits n v.toNat := h

/-- The accumulator holds the result that was put into it, at the width it was put. -/
theorem acc_putAlu {w : Width} {q : AluResult} (h : q.value.toNat < 2 ^ w.bits) (s : State) :
    (s.putAlu w q).acc w = q.value := by
  rw [State.acc, State.a16, State.putAlu_al]
  cases w with
  | w8 => rw [← cut_of_lt h, cut_w8, cut_w8, loByte_mkWord, loByte_zext]
  | w16 => rw [State.putAlu_ah, cut_w16]; exact mkWord_loByte_hiByte q.value

theorem toNat_ofNat_of_digits {w : Width} {r : Nat} (h : r < 16 ^ (w.bits / 4)) :
    (BitVec.ofNat 16 r).toNat = r ∧ (BitVec.ofNat 16 r).toNat < 2 ^ w.bits := by
  rw [bits_div_four] at h
  have h16 : r < 2 ^ 16 := h.trans_le (Nat.pow_le_pow_right (by decide) (by cases w <;> decide))
  rw [BitVec.toNat_ofNat, Nat.mod_eq_of_lt h16]
  exact ⟨rfl, h⟩

/-- Settles O17: the digit loops on decimal digits. -/
theorem decimalValueIsExact : Obligations.DecimalValueIsExact := by
  unfold Obligations.DecimalValueIsExact
  intro i src s m t hs hD h
  dsimp only
  intro ha hm
  refine ⟨fun ho => ⟨_, exec_adc_eq hs ho h, ?_⟩, fun ho => ⟨_, exec_sbc_eq hs ho h, ?_⟩⟩
  · obtain ⟨hdigits, hlt, hvalue⟩ := addDigits_decimal s.fC
      (decimalDigits_of_isBcd ha) (decimalDigits_of_isBcd hm)
    obtain ⟨heq, hfits⟩ := toNat_ofNat_of_digits hlt
    rw [adcResult_decimal hD, acc_putAlu (q := addDec ..) hfits, State.putAlu_fC, bcdValue_eq, bcdValue_eq, bcdValue_eq]
    simp only [IsBcd, digit, addDec, heq]
    exact ⟨hdigits, hvalue⟩
  · obtain ⟨hdigits, hlt, hvalue⟩ := subDigits_decimal (!s.fC)
      (decimalDigits_of_isBcd ha) (decimalDigits_of_isBcd hm)
    obtain ⟨heq, hfits⟩ := toNat_ofNat_of_digits hlt
    have hnot (b : Bool) : (!b).toNat = 1 - b.toNat := by cases b <;> rfl
    rw [sbcResult_decimal hD, acc_putAlu (q := subDec ..) hfits, State.putAlu_fC, bcdValue_eq, bcdValue_eq, bcdValue_eq]
    simp only [IsBcd, digit, subDec, heq, ← hnot, Bool.not_not]
    exact ⟨hdigits, hvalue⟩

end Sys2Proof.Machine
end

section
/-! PROOFS. Bit tests (41_arith_logic.md section 3): BIT, TSB and TRB. -/

namespace Sys2Proof.Machine

/-! ## BIT -/

theorem exec_bit_imm {i : Instr} {v : Word} (s : State) (h : i.op = .bit) (hs : i.operand.src? = some (.imm v)) :
    exec i s = finish (opBitImm v s) := by
  cases i
  case bitImmM => cases hs; rfl
  all_goals first | (cases h; done) | cases hs

theorem operand_of_src_mem {o : Operand} {m : MemMode} (h : o.src? = some (.mem m)) : o = .mem m := by
  cases o <;> cases h
  rfl

section BitWidths

variable {i : Instr} {src : Src} {s t : State} {m : Word} (ho : i.op = .bit) (hs : i.operand.src? = some src)
  (h : readSrc s.wM src s = .ok (m, t))
include ho hs h

/-- `BIT #` writes Z alone (R219). -/
theorem exec_bit_of_imm (hi : ∃ v, src = .imm v) :
    exec i s = .next { s with fZ := decide (s.acc s.wM &&& m = 0), events := t.events } := by
  obtain ⟨v, rfl⟩ := hi
  rw [exec_bit_imm s ho hs, opBitImm_eq, withOperand_ok _ h, finish_ok, beq_eq_decide]
  rfl

/-- `BIT` of memory writes Z, and N and V from the operand's two top bits (R219). -/
theorem exec_bit_of_mem (hm : ∃ mm, src = .mem mm) :
    exec i s = .next { s with
      fZ := decide (s.acc s.wM &&& m = 0), fN := topBit s.wM m, fV := m.getLsbD (s.wM.bits - 2), events := t.events } := by
  obtain ⟨mm, rfl⟩ := hm
  rw [exec_bit s ho (operand_of_src_mem hs), opBit_eq, withOperand_ok _ h, finish_ok, beq_eq_decide]
  rfl

end BitWidths

theorem zext_and_eq_zero (a b : Byte) : zext a &&& zext b = 0 ↔ a &&& b = 0 := by
  have hand : zext (a &&& b) = zext a &&& zext b := BitVec.setWidth_and
  rw [← hand]
  exact zext_eq_zero _

/-- Settles O18: BIT at the width that fM selects. -/
theorem bitResults : Obligations.BitResults := by
  unfold Obligations.BitResults
  intro i src s ho hs
  refine ⟨fun hM m t h => ?_, fun hM m t h => ?_⟩
  · have h' := h
    rw [← wM_of_fM hM] at h'
    have hz : (zext s.al &&& m = 0) = (s.al &&& loByte m = 0) := by
      rw [readSrc_w8 h, loByte_zext, zext_and_eq_zero]
    have himm := exec_bit_of_imm ho hs h'
    have hmem := exec_bit_of_mem ho hs h'
    simp only [wM_of_fM hM, acc_w8, hz] at himm hmem
    exact ⟨himm, hmem⟩
  · have h' := h
    rw [← wM_of_not_fM hM] at h'
    have himm := exec_bit_of_imm ho hs h'
    have hmem := exec_bit_of_mem ho hs h'
    simp only [wM_of_not_fM hM, acc_w16] at himm hmem
    exact ⟨himm, hmem⟩

/-! ## TSB and TRB -/

theorem opTsb_of_updated {m : MemMode} {s t : State} {v r : Word} (h : Updated s.wM (.mem m) s v r t)
    (hr : r = v ||| s.acc s.wM) : opTsb m s = .ok { t with fZ := decide (s.acc s.wM &&& v = 0) } := by
  rw [opTsb, h.modifyLoc_eq hr, ok_bind, ← beq_eq_decide]
  rfl

theorem opTrb_of_updated {m : MemMode} {s t : State} {v r : Word} (h : Updated s.wM (.mem m) s v r t)
    (hr : r = v &&& ~~~(s.acc s.wM)) : opTrb m s = .ok { t with fZ := decide (s.acc s.wM &&& v = 0) } := by
  rw [opTrb, h.modifyLoc_eq hr, ok_bind, ← beq_eq_decide]
  rfl

/-- Settles O19: TSB and TRB are one update of memory, with Z from the operand as it was read. -/
theorem testAndSetResults : Obligations.TestAndSetResults := by
  unfold Obligations.TestAndSetResults
  intro i mm s hm ho ea s1 m s2 t hea hread hwrite
  have hupdate : Updated s.wM (.mem mm) s m (if i.op = .tsb then m ||| s.acc s.wM else m &&& ~~~(s.acc s.wM)) t :=
    ⟨ea, s1, s2, hea, hread, hwrite⟩
  obtain ⟨hframe, hbytes⟩ := hupdate.frame
  refine ⟨?_, hframe, fun hwf => hbytes ea s1 hea hwf⟩
  obtain ho | ho := ho
  · rw [exec_tsb s ho hm, opTsb_of_updated hupdate (if_pos ho), finish_ok]
  · rw [exec_trb s ho hm, opTrb_of_updated hupdate (if_neg (by rw [ho]; decide)), finish_ok]

end Sys2Proof.Machine
end

section
/-! PROOFS. Transfers, flag operations and NOP (43_load_store_transfer.md sections 3 to 5), branches and JMP
(44_control.md sections 1 and 2), mode switches (47_mode_switch.md), D (48_muldiv.md) and the MMU (49_system.md). -/

namespace Sys2Proof

/-! ## Rows of the opcode table -/

theorem rowsOf_clc : RowsOf .clc [(0x18, .implied)] := rowsOf_of_map (by decide)
theorem rowsOf_sec : RowsOf .sec [(0x38, .implied)] := rowsOf_of_map (by decide)
theorem rowsOf_cli : RowsOf .cli [(0x58, .implied)] := rowsOf_of_map (by decide)
theorem rowsOf_sei : RowsOf .sei [(0x78, .implied)] := rowsOf_of_map (by decide)
theorem rowsOf_cld : RowsOf .cld [(0xD8, .implied)] := rowsOf_of_map (by decide)
theorem rowsOf_sed : RowsOf .sed [(0xF8, .implied)] := rowsOf_of_map (by decide)
theorem rowsOf_clv : RowsOf .clv [(0xB8, .implied)] := rowsOf_of_map (by decide)
theorem rowsOf_nop : RowsOf .nop [(0xEA, .implied)] := rowsOf_of_map (by decide)

theorem rowsOf_bpl : RowsOf .bpl [(0x10, .rel)] := rowsOf_of_map (by decide)
theorem rowsOf_bmi : RowsOf .bmi [(0x30, .rel)] := rowsOf_of_map (by decide)
theorem rowsOf_bvc : RowsOf .bvc [(0x50, .rel)] := rowsOf_of_map (by decide)
theorem rowsOf_bvs : RowsOf .bvs [(0x70, .rel)] := rowsOf_of_map (by decide)
theorem rowsOf_bcc : RowsOf .bcc [(0x90, .rel)] := rowsOf_of_map (by decide)
theorem rowsOf_bcs : RowsOf .bcs [(0xB0, .rel)] := rowsOf_of_map (by decide)
theorem rowsOf_bne : RowsOf .bne [(0xD0, .rel)] := rowsOf_of_map (by decide)
theorem rowsOf_beq : RowsOf .beq [(0xF0, .rel)] := rowsOf_of_map (by decide)
theorem rowsOf_bra : RowsOf .bra [(0x80, .rel)] := rowsOf_of_map (by decide)

end Sys2Proof

namespace Sys2Proof.Machine

/-! ## Transfers -/

theorem loByte_a16 (s : State) : loByte s.a16 = s.al := by
  rw [State.a16, loByte_mkWord]

/-- The accumulator into X, at the width of X, whatever fM is (R277). -/
theorem exec_tax (s : State) :
    exec .tax s = .next (if s.fX then s.xResult8 s.al else s.xResult16 (mkWord s.al s.ah)) := by
  change finish (.ok ((s.setX s.wX s.a16).setNZ s.wX s.a16)) = _
  rw [setX_setNZ_wX, loByte_a16, finish_ok]
  rfl

theorem exec_tay (s : State) :
    exec .tay s = .next (if s.fX then s.yResult8 s.al else s.yResult16 (mkWord s.al s.ah)) := by
  change finish (.ok ((s.setY s.wX s.a16).setNZ s.wX s.a16)) = _
  rw [setY_setNZ_wX, loByte_a16, finish_ok]
  rfl

theorem exec_txa (s : State) : exec .txa s = .next (if s.fM then s.accResult8 (loByte s.x) else s.accResult16 s.x) :=
  congrArg (fun u => finish (.ok u)) (setAcc_setNZ_wM s s.x)

theorem exec_tya (s : State) : exec .tya s = .next (if s.fM then s.accResult8 (loByte s.y) else s.accResult16 s.y) :=
  congrArg (fun u => finish (.ok u)) (setAcc_setNZ_wM s s.y)

theorem exec_txy (s : State) : exec .txy s = .next (if s.fX then s.yResult8 (loByte s.x) else s.yResult16 s.x) :=
  congrArg (fun u => finish (.ok u)) (setY_setNZ_wX s s.x)

theorem exec_tyx (s : State) : exec .tyx s = .next (if s.fX then s.xResult8 (loByte s.y) else s.xResult16 s.y) :=
  congrArg (fun u => finish (.ok u)) (setX_setNZ_wX s s.y)

theorem exec_tix (s : State) : exec .tix s = .next (if s.fX then s.xResult8 (loByte s.i) else s.xResult16 s.i) :=
  congrArg (fun u => finish (.ok u)) (setX_setNZ_wX s s.i)

theorem exec_tda (s : State) : exec .tda s = .next (if s.fM then s.accResult8 (loByte s.d) else s.accResult16 s.d) :=
  congrArg (fun u => finish (.ok u)) (setAcc_setNZ_wM s s.d)

/-- Settles O26: each transfer writes its destination at the destination's own width. -/
theorem transferResults : Obligations.TransferResults := by
  unfold Obligations.TransferResults
  exact fun s => ⟨exec_tax s, exec_tay s, exec_txa s, exec_tya s, exec_txy s, exec_tyx s⟩

theorem msb_zext (b : Byte) : (zext b).msb = false := by
  rw [BitVec.msb_eq_decide, toNat_zext]
  have := b.isLt
  simp
  omega

/-- N and Z of a byte at the index width: at width 16 a zero-extended byte is not negative. -/
theorem setNZ_zext_wX (s : State) (b : Byte) :
    s.setNZ s.wX (zext b) = { s with fN := s.fX && b.msb, fZ := decide (b = 0) } := by
  cases hX : s.fX
  · rw [wX_of_not_fX hX, State.setNZ, topBit_w16, cut_w16, beq_eq_decide, msb_zext]
    simp [hX]
  · rw [wX_of_fX hX, State.setNZ, topBit_w8, loByte_zext, cut_w8, loByte_zext, beq_eq_decide]
    simp [hX]

/-- Settles O27: the transfers between X and the pointer registers. -/
theorem pointerTransferResults : Obligations.PointerTransferResults := by
  unfold Obligations.PointerTransferResults
  intro s
  refine ⟨?_, rfl, ?_, rfl, rfl, exec_tix s⟩
  · exact congrArg (fun u => finish (.ok u)) (setNZ_zext_wX { s with x := zext s.sp } s.sp)
  · exact congrArg (fun u => finish (.ok u)) (setNZ_zext_wX { s with x := zext s.r } s.r)

/-- Settles O28: each flag operation is one field written. -/
theorem flagOperationResults : Obligations.FlagOperationResults := by
  unfold Obligations.FlagOperationResults
  exact ⟨⟨rowsOf_clc, rowsOf_sec, rowsOf_cli, rowsOf_sei, rowsOf_cld, rowsOf_sed, rowsOf_clv, rowsOf_nop⟩,
    fun s => ⟨rfl, rfl, rfl, rfl, rfl, rfl, rfl, rfl⟩⟩

/-! ## Branches and jumps -/

/-- The target of a branch is PC plus the signed displacement, modulo 65536 (R185). -/
theorem relTarget_eq (b : Byte) (s : State) : relTarget b s = BitVec.ofInt 16 ((s.pc.toNat : Int) + b.toInt) := by
  rw [relTarget, sext, BitVec.ofInt_add, BitVec.ofInt_natCast, BitVec.ofNat_toNat, BitVec.setWidth_eq]
  rfl

/-- The state after a branch whose condition is `taken`. -/
theorem finish_branchIf (taken : Bool) (b : Byte) (s : State) : finish (branchIf taken b s) =
    .next (if taken then { s with pc := BitVec.ofInt 16 ((s.pc.toNat : Int) + b.toInt) } else s) := by
  rw [branchIf, relTarget_eq, finish_ok]

/-- Settles O29: each branch is `branchIf` of its condition. -/
theorem branchResults : Obligations.BranchResults := by
  unfold Obligations.BranchResults
  exact ⟨⟨rowsOf_bpl, rowsOf_bmi, rowsOf_bvc, rowsOf_bvs, rowsOf_bcc, rowsOf_bcs, rowsOf_bne, rowsOf_beq, rowsOf_bra⟩,
    fun s b => ⟨finish_branchIf _ b s, finish_branchIf _ b s, finish_branchIf _ b s, finish_branchIf _ b s,
      finish_branchIf _ b s, finish_branchIf _ b s, finish_branchIf _ b s, finish_branchIf _ b s, finish_branchIf _ b s⟩⟩

/-- A jump through a word in memory changes PC and the record of interactions alone. -/
theorem finish_jump_through {a target : Word} {s t : State} (h : memRead16 a s = .ok (target, t)) :
    finish (memRead16 a s >>= fun p => Except.ok { p.2 with pc := p.1 }) =
      .next { s with pc := target, events := t.events } := by
  have ht : t = { s with events := t.events } := memRead16_readOnly h
  rw [h, ok_bind, finish_ok, ht]

/-- Settles O30: the three forms of JMP. -/
theorem jumpResults : Obligations.JumpResults := by
  unfold Obligations.JumpResults
  exact fun s w => ⟨rfl, fun target t h => finish_jump_through h, fun target t h => finish_jump_through h⟩

/-! ## REP, SEP, XCE and XBA -/

/-- Settles O40: the mask bit by bit, in each mode. -/
theorem statusMaskResults : Obligations.StatusMaskResults := by
  unfold Obligations.StatusMaskResults
  intro s k
  change finish (opRep k s) = _ ∧ finish (opSep k s) = _
  cases hE : s.fE
  case true => simp [opRep, opSep, hE]
  case false => cases hk : k[4] <;> simp [opRep, opSep, hE, hk, State.cutIndex, cut_w8]

/-- Settles O41: XCE into and out of emulation, and XBA. -/
theorem modeExchangeResults : Obligations.ModeExchangeResults := by
  unfold Obligations.ModeExchangeResults
  intro s
  change (_ → finish (opXce s) = _) ∧ (_ → finish (opXce s) = _) ∧ finish (opXba s) = _
  refine ⟨fun hC => ?_, fun hC => ?_, ?_⟩
  · simp [opXce, hC, State.cutIndex, cut_w8]
  · simp [opXce, hC]
  · simp [opXba, State.setNZ, cut_w8, beq_eq_decide]

/-! ## D and the accumulator -/

theorem msb_mkWord (lo hi : Byte) : (mkWord lo hi).msb = hi.msb := by
  rw [mkWord, BitVec.msb_append]
  rfl

/-- Settles O45: the moves between the accumulator and D, at the accumulator's width. -/
theorem wideRegisterResults : Obligations.WideRegisterResults := by
  unfold Obligations.WideRegisterResults
  intro s
  refine ⟨rfl, ?_, ?_, exec_tda s⟩
  · change finish (opSea s) = _
    cases hM : s.fM
    · simp [opSea, wM_of_not_fM hM, msb_mkWord, hM]
    · simp [opSea, wM_of_fM hM, hM]
  · change finish (opTad s) = _
    cases hM : s.fM
    · simp [opTad, wM_of_not_fM hM, hM]
    · simp [opTad, wM_of_fM hM, hM]

/-! ## Signals and the MMU -/

/-- Settles O46: each operation is one signal written. -/
theorem signalResults : Obligations.SignalResults := by
  unfold Obligations.SignalResults
  exact fun s => ⟨rfl, rfl, rfl⟩

/-- The accumulator read at its width, as a word. -/
theorem acc_wM (s : State) : s.acc s.wM = if s.fM then zext s.al else mkWord s.al s.ah := by
  cases hM : s.fM
  · rw [wM_of_not_fM hM, acc_w16]; rfl
  · rw [wM_of_fM hM, acc_w8]; rfl

/-- The accumulator written at its width. -/
theorem setAcc_wM (s : State) (v : Word) :
    s.setAcc s.wM v = if s.fM then { s with al := loByte v } else { s with al := loByte v, ah := hiByte v } := by
  split
  next hM => rw [wM_of_fM hM]; rfl
  next hM => rw [wM_of_not_fM (Bool.eq_false_of_not_eq_true hM)]; rfl

/-- A selector outside the table of R453 has no effect. -/
theorem mmuOp_other {k : Byte} (s : State) (hlow : 6 < k.toNat) (hmid : k.toNat < 0x80 ∨ 0x86 < k.toNat)
    (hlog : k ≠ 0xFF) : mmuOp k s = s := by
  have hlog' : k.toNat ≠ 0xFF := fun h => hlog (BitVec.eq_of_toNat_eq h)
  unfold mmuOp
  split
  case h_16 => rfl
  all_goals omega

/-- Settles O47: one equation for each selector of the table, and `mmuOp_other` for the rest. -/
theorem mmuResults : Obligations.MmuResults := by
  unfold Obligations.MmuResults
  intro s
  dsimp only
  simp only [← acc_wM, ← setAcc_wM]
  refine ⟨⟨rfl, rfl⟩, ⟨rfl, rfl⟩, ⟨rfl, rfl⟩, ⟨rfl, rfl⟩, ⟨rfl, rfl⟩, ⟨rfl, rfl⟩, ⟨rfl, rfl⟩, rfl, fun k h1 h2 h3 => ?_⟩
  exact congrArg (fun u => finish (.ok u)) (mmuOp_other s h1 h2 h3)

end Sys2Proof.Machine
end

section
/-! PROOFS. Subroutines, BRK and RTI (44_control.md), pushes and pulls on both stacks (45_stack.md, 46_aux_stack.md) and
threaded code: what they answer where their accesses do. -/

namespace Sys2Proof.Machine

/-! ## Results at the width another state has -/

section Results

variable {s t : State}

theorem setAcc_setNZ_of_fM (h : t.fM = s.fM) (v : Word) :
    (t.setAcc s.wM v).setNZ s.wM v = if s.fM then t.accResult8 (loByte v) else t.accResult16 v := by
  have hw : s.wM = t.wM := by rw [State.wM, State.wM, h]
  rw [hw, setAcc_setNZ_wM, h]

theorem setX_setNZ_of_fX (h : t.fX = s.fX) (v : Word) :
    (t.setX s.wX v).setNZ s.wX v = if s.fX then t.xResult8 (loByte v) else t.xResult16 v := by
  have hw : s.wX = t.wX := by rw [State.wX, State.wX, h]
  rw [hw, setX_setNZ_wX, h]

theorem setY_setNZ_of_fX (h : t.fX = s.fX) (v : Word) :
    (t.setY s.wX v).setNZ s.wX v = if s.fX then t.yResult8 (loByte v) else t.yResult16 v := by
  have hw : s.wX = t.wX := by rw [State.wX, State.wX, h]
  rw [hw, setY_setNZ_wX, h]

end Results

/-! ## Pushes -/

/-- At width 8 a push takes the low byte alone, so it does not see whether its value was cut. -/
theorem pushW_cut (w : Width) (v : Word) (s : State) : pushW w (cut w v) s = pushW w v s := by
  cases w
  · rw [pushW, pushW, cut_w8, loByte_zext]
  · rfl

theorem rpushW_cut (w : Width) (v : Word) (s : State) : rpushW w (cut w v) s = rpushW w v s := by
  cases w
  · rw [rpushW, rpushW, cut_w8, loByte_zext]
  · rfl

section Pushes

variable {s u t : State} {w : Width} {v : Word}

theorem finish_pushW (h : Pushes w v s t) : finish (pushW w v s) = .next t ∧ PushFrame w.bytes s t :=
  ⟨by rw [pushW_of_pushes h, finish_ok], pushFrame_of_pushes h⟩

theorem finish_rpushW (h : RPushes w v s t) : finish (rpushW w v s) = .next t ∧ RPushFrame w.bytes s t :=
  ⟨by rw [rpushW_of_pushes h, finish_ok], rpushFrame_of_pushes h⟩

/-- Reads before a push add to the record of interactions, which the push leaves free. -/
theorem PushFrame.of_readOnly {n : Nat} (hr : ReadOnly s u) (h : PushFrame n u t) : PushFrame n s t := by
  obtain ⟨hstate, hmem⟩ := h
  rw [ReadOnly] at hr
  rw [hr] at hstate hmem
  exact ⟨hstate, hmem⟩

theorem RPushFrame.of_readOnly {n : Nat} (hr : ReadOnly s u) (h : RPushFrame n u t) : RPushFrame n s t := by
  obtain ⟨hstate, hmem⟩ := h
  rw [ReadOnly] at hr
  rw [hr] at hstate hmem
  exact ⟨hstate, hmem⟩

end Pushes

/-- Settles O34: each push is `PushW` of its value at its width. -/
theorem dataPushResults : Obligations.DataPushResults := by
  unfold Obligations.DataPushResults
  refine fun s t => ⟨fun i w v hi h => ?_, fun z v u hptr h => ?_⟩
  · have hexec : exec i s = finish (pushW w v s) := by
      rcases hi with ⟨rfl, rfl, rfl⟩ | ⟨rfl, rfl, rfl⟩ | ⟨rfl, rfl, rfl⟩ | ⟨rfl, rfl, rfl⟩ | ⟨rfl, rfl, hp⟩ |
        ⟨rfl, rfl⟩ | ⟨d, rfl, rfl, rfl⟩
      · rfl
      · exact congrArg finish (pushW_cut s.wX s.x s)
      · exact congrArg finish (pushW_cut s.wX s.y s)
      · exact congrArg finish (pushW_cut s.wM s.d s)
      · rw [pushW, getP_of_isStatusByte hp]; rfl
      · rfl
      · rfl
    rw [hexec]
    exact finish_pushW h
  · obtain ⟨hnext, hframe⟩ := finish_pushW h
    refine ⟨?_, hframe.of_readOnly (effAddr_readOnly hptr)⟩
    rw [← hnext]
    exact congrArg finish (show opPei z s = pushW .w16 v u by rw [opPei, show zpPtr z s = .ok (v, u) from hptr]; rfl)

/-- Settles O37: each push is `RPushW` of its value at its width. -/
theorem auxiliaryPushResults : Obligations.AuxiliaryPushResults := by
  unfold Obligations.AuxiliaryPushResults
  refine fun s t => ⟨fun i w v hi h => ?_, fun z v u hptr h => ?_⟩
  · have hexec : exec i s = finish (rpushW w v s) := by
      rcases hi with ⟨rfl, rfl, rfl⟩ | ⟨rfl, rfl, rfl⟩ | ⟨rfl, rfl, rfl⟩ | ⟨rfl, rfl, rfl⟩ | ⟨rfl, rfl⟩ |
        ⟨d, rfl, rfl, rfl⟩
      · rfl
      · exact congrArg finish (rpushW_cut s.wX s.x s)
      · exact congrArg finish (rpushW_cut s.wX s.y s)
      · rfl
      · rfl
      · rfl
    rw [hexec]
    exact finish_rpushW h
  · obtain ⟨hnext, hframe⟩ := finish_rpushW h
    refine ⟨?_, hframe.of_readOnly (effAddr_readOnly hptr)⟩
    rw [← hnext]
    exact congrArg finish (show opRei z s = rpushW .w16 v u by rw [opRei, show zpPtr z s = .ok (v, u) from hptr]; rfl)

/-! ## Pulls -/

section Pulls

variable {s t : State} {w : Width} {v : Word}

/-- A value pulled fits its width. -/
theorem Pulls.lt (h : Pulls w v s t) : v.toNat < 2 ^ w.bits := by
  cases w
  · obtain ⟨b, -, rfl⟩ := h
    rw [toNat_zext]
    exact b.isLt
  · exact v.isLt

/-- A pull leaves every flag. -/
theorem Pulls.sameWidths (h : Pulls w v s t) : t.fM = s.fM ∧ t.fX = s.fX := by
  rw [pulls_frame h]
  exact ⟨rfl, rfl⟩

theorem RPulls.sameWidths (h : RPulls w v s t) : t.fM = s.fM ∧ t.fX = s.fX := by
  rw [rpulls_frame h]
  exact ⟨rfl, rfl⟩

theorem exec_pla (h : Pulls s.wM v s t) :
    exec .pla s = .next (if s.fM then t.accResult8 (loByte v) else t.accResult16 v) := by
  change finish (opPla s) = _
  rw [opPla, popW_of_pulls h, ← setAcc_setNZ_of_fM h.sameWidths.1]
  rfl

theorem exec_pld (h : Pulls s.wM v s t) :
    exec .pld s = .next { t with d := v, fN := v.getLsbD (s.wM.bits - 1), fZ := decide (v = 0) } := by
  change finish (opPld s) = _
  rw [opPld, popW_of_pulls h]
  exact congrArg (fun u => finish (.ok u)) (setNZ_of_lt h.lt _)

theorem exec_plx (h : Pulls s.wX v s t) :
    exec .plx s = .next (if s.fX then t.xResult8 (loByte v) else t.xResult16 v) := by
  change finish (opPlx s) = _
  rw [opPlx, popW_of_pulls h, ← setX_setNZ_of_fX h.sameWidths.2]
  rfl

theorem exec_ply (h : Pulls s.wX v s t) :
    exec .ply s = .next (if s.fX then t.yResult8 (loByte v) else t.yResult16 v) := by
  change finish (opPly s) = _
  rw [opPly, popW_of_pulls h, ← setY_setNZ_of_fX h.sameWidths.2]
  rfl

theorem exec_plp {p : Byte} (h : PullsByte p s t) : exec .plp s = .next (t.withStatus p) := by
  change finish (opPlp s) = _
  rw [opPlp, pop8_of_pulls h, ok_bind, ← setP_withStatus]
  rfl

theorem exec_rla (h : RPulls s.wM v s t) :
    exec .rla s = .next (if s.fM then t.accResult8 (loByte v) else t.accResult16 v) := by
  change finish (opRla s) = _
  rw [opRla, rpopW_of_pulls h, ← setAcc_setNZ_of_fM h.sameWidths.1]
  rfl

theorem exec_rlx (h : RPulls s.wX v s t) :
    exec .rlx s = .next (if s.fX then t.xResult8 (loByte v) else t.xResult16 v) := by
  change finish (opRlx s) = _
  rw [opRlx, rpopW_of_pulls h, ← setX_setNZ_of_fX h.sameWidths.2]
  rfl

theorem exec_rly (h : RPulls s.wX v s t) :
    exec .rly s = .next (if s.fX then t.yResult8 (loByte v) else t.yResult16 v) := by
  change finish (opRly s) = _
  rw [opRly, rpopW_of_pulls h, ← setY_setNZ_of_fX h.sameWidths.2]
  rfl

theorem exec_rli (h : RPulls .w16 v s t) :
    exec .rli s = .next { t with i := v, fN := v.msb, fZ := decide (v = 0) } := by
  change finish (opRli s) = _
  rw [opRli, rpop16_of_pulls h, ← topBit_w16, ← beq_eq_decide]
  rfl

end Pulls

/-- Settles O35: each pull is `PopW` into its register. -/
theorem dataPullResults : Obligations.DataPullResults := by
  unfold Obligations.DataPullResults
  exact fun s t v => ⟨fun h => ⟨pulls_frame h, exec_pla h, exec_pld h⟩, fun h => ⟨pulls_frame h, exec_plx h, exec_ply h⟩,
    fun p h => ⟨pullsByte_frame h, exec_plp h⟩⟩

/-- Settles O38: each pull is `RPopW` into its register. -/
theorem auxiliaryPullResults : Obligations.AuxiliaryPullResults := by
  unfold Obligations.AuxiliaryPullResults
  exact fun s t v => ⟨fun h => ⟨rpulls_frame h, exec_rla h⟩, fun h => ⟨rpulls_frame h, exec_rlx h, exec_rly h⟩,
    fun h => ⟨rpulls_frame h, exec_rli h⟩⟩

/-! ## Threaded code -/

/-- Settles O39: ENT is a push of I, NXT and NXA a read through I. -/
theorem threadedCodeResults : Obligations.ThreadedCodeResults := by
  unfold Obligations.ThreadedCodeResults
  refine fun s => ⟨fun w t h => ⟨?_, rpushFrame_of_pushes h⟩, fun v t h => ?_, fun v t h => ?_⟩
  · have hpc : t.pc = s.pc := by rw [(rpushFrame_of_pushes h).1]
    change finish (opEnt w s) = _
    rw [opEnt, rpush16_of_pushes h, ← hpc]
    rfl
  · have ht : t = { s with events := t.events } := memReadW_readOnly h
    change finish (opNxt s) = _
    rw [opNxt, show memRead16 s.i s = .ok (v, t) from h, ok_bind, ht]
    rfl
  · have ht : t = { s with events := t.events } := memReadW_readOnly h
    have hexec : exec .nxa s = .next { (if s.fM then s.accResult8 (loByte v) else s.accResult16 v) with
        i := s.i + BitVec.ofNat 16 s.wM.bytes, events := t.events } := by
      change finish (opNxa s) = _
      rw [opNxa, h, ok_bind, ht, ← setAcc_setNZ_wM]
      cases s.wM <;> rfl
    refine ⟨fun hM => ?_, fun hM => ?_⟩
    · rw [hexec, wM_of_fM hM, if_pos hM]; rfl
    · rw [hexec, wM_of_not_fM hM, if_neg (ne_true_of_eq_false hM)]; rfl

/-! ## Subroutines and interrupts -/

theorem exec_rts {v : Word} {s t : State} (h : PullsWord v s t) : exec .rts s = .next { t with pc := v + 1 } := by
  change finish (opRts s) = _
  rw [opRts, pop16_of_pulls h]
  rfl

/-- Settles O31: JSR is a push of the address of its last byte, RTS a pull. -/
theorem subroutineResults : Obligations.SubroutineResults := by
  unfold Obligations.SubroutineResults
  refine fun s w => ⟨fun t h => ⟨?_, pushFrame_word h⟩, fun target u t hptr h => ⟨?_, ?_⟩, fun v t h =>
    ⟨exec_rts h, pullsWord_frame h⟩⟩
  · change finish (opJsr w s) = _
    rw [opJsr, push16_of_pushes h]
    rfl
  · have hpc : u.pc = s.pc := by rw [memReadW_readOnly hptr]
    change finish (opJsrIndexed w s) = _
    rw [opJsrIndexed, show indexedIndirectTarget w s = .ok (target, u) from hptr, ok_bind]
    simp only [hpc, push16_of_pushes h]
    rfl
  · exact (pushFrame_word h).of_readOnly (memReadW_readOnly hptr)

/-- An interrupt entry, in the words of the statements, is what `takeInterrupt` does. -/
theorem takeInterrupt_of_enters {brk : Bool} {ret vec : Word} {s t : State} (h : EntersInterrupt brk ret vec s t) :
    takeInterrupt brk ret vec s = .ok t := by
  obtain ⟨u, p, v, hword, hp, hbyte, rfl⟩ := h
  rw [getP_of_isStatusByte hp] at hbyte
  have hparams : v.params = s.params := by rw [(pushFrame_byte hbyte).1, (pushFrame_word hword).1]
  have hfD : (v.fD && !s.params.intClearsD) = if v.params.intClearsD then false else v.fD := by
    rw [hparams]
    cases s.params.intClearsD <;> simp
  exact takeInterrupt_eq_ok.2 ⟨u, v, push16_of_pushes hword, push8_of_pushes hbyte, by rw [hfD]⟩

/-- An entry pushes three bytes. -/
theorem EntersInterrupt.frame {brk : Bool} {ret vec : Word} {s t : State} (h : EntersInterrupt brk ret vec s t) :
    ∃ v, PushFrame 3 { s with fB := brk } v ∧
      t = { v with fI := true, fD := v.fD && !s.params.intClearsD, pc := vec } := by
  obtain ⟨u, p, v, hword, -, hbyte, ht⟩ := h
  exact ⟨v, (pushFrame_word hword).trans (pushFrame_byte hbyte) (pushesWord_wf hword), ht⟩

theorem redBusRead_withStatus (a : Word) (s : State) (p : Byte) :
    redBusRead a (s.withStatus p) = ((redBusRead a s).1, (redBusRead a s).2.withStatus p) := by
  by_cases hsilent : s.rbEnabled = false ∨ s.activePeripheral = none
  · rw [redBusRead_silent hsilent, redBusRead_silent (s := s.withStatus p) hsilent]
  · obtain ⟨he, hp⟩ := not_or.1 hsilent
    obtain ⟨q, hq⟩ := Option.ne_none_iff_exists'.1 hp
    rw [redBusRead_active (Bool.eq_true_of_not_eq_false he) hq,
      redBusRead_active (s := s.withStatus p) (Bool.eq_true_of_not_eq_false he) hq]
    rfl

/-- A read does not see the status byte written. -/
theorem busRead_withStatus {a : Word} {s t : State} {v : Byte} (p : Byte) (h : busRead a s = .ok (v, t)) :
    busRead a (s.withStatus p) = .ok (v, t.withStatus p) := by
  cases htarget : s.busTarget a with
  | redBus =>
    rw [busRead_redBus htarget] at h
    rw [busRead_redBus (s := s.withStatus p) htarget, redBusRead_withStatus, (Except.ok.inj h)]
  | ram =>
    rw [busRead_ram htarget] at h
    cases h
    exact busRead_ram (s := s.withStatus p) htarget
  | external id offset =>
    rw [busRead_external htarget] at h
    cases h
    exact busRead_external (s := s.withStatus p) htarget
  | unmapped =>
    rw [busRead_unmapped htarget] at h
    cases h

theorem pullsWord_withStatus {v : Word} {s t : State} (p : Byte) (h : PullsWord v s t) :
    PullsWord v (s.withStatus p) (t.withStatus p) := by
  obtain ⟨lo, hi, u, hlo, hhi, hv⟩ := h
  exact ⟨lo, hi, u.withStatus p, busRead_withStatus p hlo, busRead_withStatus p hhi, hv⟩

theorem exec_rti {p : Byte} {v : Word} {s u t : State} (hp : PullsByte p s u) (hv : PullsWord v u t) :
    exec .rti s = .next { s.withStatus p with sp := s.sp + 3, pc := v, events := t.events } := by
  have hu := pullsByte_frame hp
  have ht := pullsWord_frame hv
  have hsp : s.sp + 1 + 2 = s.sp + 3 := BitVec.add_assoc ..
  change finish (returnFromInterrupt s) = _
  rw [returnFromInterrupt, pop8_of_pulls hp, ok_bind]
  simp only [setP_withStatus, pop16_of_pulls (pullsWord_withStatus p hv), ok_bind]
  rw [ht, hu, hsp]
  rfl

/-- Settles O32: BRK is an entry, RTI two pulls with the status byte written between them. -/
theorem softwareInterruptResults : Obligations.SoftwareInterruptResults := by
  unfold Obligations.SoftwareInterruptResults
  refine fun s => ⟨fun t h => ⟨?_, ?_, ?_⟩, fun p v u t hp hv => exec_rti hp hv⟩
  · exact congrArg finish (takeInterrupt_of_enters h)
  · obtain ⟨v, ⟨hv, -⟩, rfl⟩ := h.frame
    rw [hv]
    rfl
  · obtain ⟨v, ⟨-, hmem⟩, rfl⟩ := h.frame
    exact hmem

end Sys2Proof.Machine
end

section
/-! PROOFS. Round trips (44_control.md, 45_stack.md, 46_aux_stack.md, 47_mode_switch.md): where a stack window is RAM, a
pull takes off what the push put on, so RTS undoes JSR, RTI undoes an entry, and each pull undoes its push. -/

namespace Sys2Proof.Machine

/-! ## A stack in RAM: the bytes a push writes and a pull reads -/

/-- Memory after a push of a value from the offset `o` downward, high byte first. -/
def pushedTo (addr : Byte → Word) (w : Width) (o : Byte) (v : Word) (m : List Host.Cell) : List Host.Cell :=
  match w with
  | .w8 => Memory.write m (addr o).toNat (loByte v)
  | .w16 => Memory.write (Memory.write m (addr o).toNat (hiByte v)) (addr (o - 1)).toNat (loByte v)

/-- The value a pull takes from above the offset `o`, low byte first. -/
def pulledFrom (addr : Byte → Word) (w : Width) (o : Byte) (m : List Host.Cell) : Word :=
  match w with
  | .w8 => zext (Memory.read m (addr (o + 1)).toNat)
  | .w16 => mkWord (Memory.read m (addr (o + 1)).toNat) (Memory.read m (addr (o + 1 + 1)).toNat)

theorem wf_pushedTo {addr : Byte → Word} {w : Width} {o : Byte} {v : Word} {m : List Host.Cell}
    (h : Memory.wf m = true) : Memory.wf (pushedTo addr w o v m) = true := by
  cases w
  · exact Memory.wf_write _ _ h
  · exact Memory.wf_write _ _ (Memory.wf_write _ _ h)

section Window

variable {base : Word} {o : Byte} {v : Word} {m : List Host.Cell} (hwf : Memory.wf m = true)
include hwf

/-- A read in a stack window after a write there: offsets stand for addresses. -/
theorem read_write_window (p : Byte) (k : Byte) :
    Memory.read (Memory.write m (base + zext o).toNat p) (base + zext k).toNat =
      if k = o then p else Memory.read m (base + zext k).toNat := by
  have hinj : base + zext k = base + zext o ↔ k = o := by
    rw [BitVec.add_right_inj]
    exact ⟨fun h => by rw [← loByte_zext k, h, loByte_zext], fun h => by rw [h]⟩
  rw [Memory.read_write hwf]
  simp only [hinj]

/-- A pull from where a push left the pointer takes the value pushed, at its width. -/
theorem pulledFrom_pushedTo (w : Width) : pulledFrom (base + zext ·) w (o - BitVec.ofNat 8 w.bytes)
    (pushedTo (base + zext ·) w o v m) = cut w v := by
  cases w with
  | w8 =>
    have ho : o - BitVec.ofNat 8 Width.w8.bytes + 1 = o := BitVec.sub_add_cancel ..
    rw [pulledFrom, pushedTo, ho, read_write_window hwf, if_pos rfl, cut_w8]
  | w16 =>
    have hlow : o - BitVec.ofNat 8 Width.w16.bytes + 1 = o - 1 := by simp only [Width.bytes]; bv_omega
    have hhigh : o - 1 + 1 = o := BitVec.sub_add_cancel ..
    have hne : o ≠ o - 1 := by bv_omega
    rw [pulledFrom, pushedTo, hlow, hhigh, read_write_window (Memory.wf_write _ _ hwf), if_pos rfl,
      read_write_window (Memory.wf_write _ _ hwf), if_neg hne, read_write_window hwf, if_pos rfl, mkWord_loByte_hiByte,
      cut_w16]

/-- A byte pushed below a word leaves the word. -/
theorem pulledFrom_write_below (p : Byte) : pulledFrom (base + zext ·) .w16 o (Memory.write m (base + zext o).toNat p) =
    pulledFrom (base + zext ·) .w16 o m := by
  have hlow : o + 1 ≠ o := by bv_omega
  have hhigh : o + 1 + 1 ≠ o := by bv_omega
  rw [pulledFrom, read_write_window hwf, if_neg hlow, read_write_window hwf, if_neg hhigh]
  rfl

end Window

section Ram

variable {s : State}

section DataStack

variable (hram : ∀ o : Byte, s.busTarget (s.params.dstackBase + zext o) = .ram)
include hram

theorem push8_ram (v : Byte) :
    push8 v s = .ok { s with sp := s.sp - 1, mem := Memory.write s.mem (s.dstackAddr s.sp).toNat v } := by
  rw [push8, show busWrite (s.dstackAddr s.sp) v s = _ from busWrite_ram v (hram s.sp)]
  rfl

theorem pop8_ram :
    pop8 s = .ok (Memory.read s.mem (s.dstackAddr (s.sp + 1)).toNat, { s with sp := s.sp + 1 }) :=
  busRead_ram (s := { s with sp := s.sp + 1 }) (hram (s.sp + 1))

theorem pushW_ram (w : Width) (v : Word) : pushW w v s =
    .ok { s with sp := s.sp - BitVec.ofNat 8 w.bytes, mem := pushedTo s.dstackAddr w s.sp v s.mem } := by
  cases w
  · exact push8_ram hram _
  · have hsp : s.sp - 1 - 1 = s.sp - 2 := by bv_omega
    rw [pushW, push16, push8_ram hram, ok_bind]
    refine (push8_ram ?_ _).trans ?_
    · exact hram
    · rw [hsp]; rfl

theorem popW_ram (w : Width) :
    popW w s = .ok (pulledFrom s.dstackAddr w s.sp s.mem, { s with sp := s.sp + BitVec.ofNat 8 w.bytes }) := by
  cases w
  · rw [popW, pop8_ram hram]
    rfl
  · have hsp : s.sp + 1 + 1 = s.sp + BitVec.ofNat 8 Width.w16.bytes := by simp only [Width.bytes]; bv_omega
    have hhigh := pop8_ram (s := { s with sp := s.sp + 1 }) hram
    refine (pop16_of_pulls ⟨_, _, _, pop8_ram hram, hhigh, rfl⟩).trans ?_
    rw [← hsp]
    rfl

end DataStack

section AuxiliaryStack

variable (hram : ∀ o : Byte, s.busTarget (s.params.rstackBase + zext o) = .ram)
include hram

theorem rpush8_ram (v : Byte) :
    rpush8 v s = .ok { s with r := s.r - 1, mem := Memory.write s.mem (s.rstackAddr s.r).toNat v } := by
  rw [rpush8, show busWrite (s.rstackAddr s.r) v s = _ from busWrite_ram v (hram s.r)]
  rfl

theorem rpop8_ram :
    rpop8 s = .ok (Memory.read s.mem (s.rstackAddr (s.r + 1)).toNat, { s with r := s.r + 1 }) :=
  busRead_ram (s := { s with r := s.r + 1 }) (hram (s.r + 1))

theorem rpushW_ram (w : Width) (v : Word) : rpushW w v s =
    .ok { s with r := s.r - BitVec.ofNat 8 w.bytes, mem := pushedTo s.rstackAddr w s.r v s.mem } := by
  cases w
  · exact rpush8_ram hram _
  · have hr : s.r - 1 - 1 = s.r - 2 := by bv_omega
    rw [rpushW, rpush16, rpush8_ram hram, ok_bind]
    refine (rpush8_ram ?_ _).trans ?_
    · exact hram
    · rw [hr]; rfl

theorem rpopW_ram (w : Width) :
    rpopW w s = .ok (pulledFrom s.rstackAddr w s.r s.mem, { s with r := s.r + BitVec.ofNat 8 w.bytes }) := by
  cases w
  · rw [rpopW, rpop8_ram hram]
    rfl
  · have hr : s.r + 1 + 1 = s.r + BitVec.ofNat 8 Width.w16.bytes := by simp only [Width.bytes]; bv_omega
    have hhigh := rpop8_ram (s := { s with r := s.r + 1 }) hram
    refine (rpop16_of_pulls ⟨_, _, _, rpop8_ram hram, hhigh, rfl⟩).trans ?_
    rw [← hr]
    rfl

end AuxiliaryStack

end Ram

/-! ## The pull after the push -/

theorem pulls_of_popW {w : Width} {v : Word} {s t : State} (h : popW w s = .ok (v, t)) : Pulls w v s t := by
  cases w
  · obtain ⟨⟨b, u⟩, hb, h⟩ := bind_eq_ok.1 h
    cases h
    exact ⟨b, hb, rfl⟩
  · obtain ⟨⟨lo, u⟩, hlo, h⟩ := bind_eq_ok.1 h
    obtain ⟨⟨hi, u'⟩, hhi, h⟩ := bind_eq_ok.1 h
    cases h
    exact ⟨lo, hi, u, hlo, hhi, rfl⟩

theorem rpulls_of_rpopW {w : Width} {v : Word} {s t : State} (h : rpopW w s = .ok (v, t)) : RPulls w v s t := by
  cases w
  · obtain ⟨⟨b, u⟩, hb, h⟩ := bind_eq_ok.1 h
    cases h
    exact ⟨b, hb, rfl⟩
  · obtain ⟨⟨lo, u⟩, hlo, h⟩ := bind_eq_ok.1 h
    obtain ⟨⟨hi, u'⟩, hhi, h⟩ := bind_eq_ok.1 h
    cases h
    exact ⟨lo, hi, u, hlo, hhi, rfl⟩

theorem pullsByte_after_push {t : State} {o p : Byte} {m : List Host.Cell} (hwf : Memory.wf m = true)
    (hram : ∀ o : Byte, t.busTarget (t.params.dstackBase + zext o) = .ram) (hsp : t.sp = o - 1)
    (hmem : t.mem = Memory.write m (t.dstackAddr o).toNat p) : PullsByte p t { t with sp := o } := by
  have hpull := pop8_ram hram
  have hvalue : Memory.read t.mem (t.dstackAddr o).toNat = p := by
    rw [hmem]
    exact (read_write_window hwf p o).trans (if_pos rfl)
  rwa [hsp, BitVec.sub_add_cancel, hvalue] at hpull

theorem pulls_of_read {t : State} {w : Width} {v : Word} {o : Byte}
    (hram : ∀ o : Byte, t.busTarget (t.params.dstackBase + zext o) = .ram) (hsp : t.sp + BitVec.ofNat 8 w.bytes = o)
    (hvalue : pulledFrom t.dstackAddr w t.sp t.mem = v) : Pulls w v t { t with sp := o } := by
  subst hsp hvalue
  exact pulls_of_popW (popW_ram hram w)

section AfterPush

variable {t : State} {w : Width} {v : Word} {o : Byte} {m : List Host.Cell} (hwf : Memory.wf m = true) (hv : cut w v = v)
include hwf hv

/-- With the memory and the pointer that a push left, a pull takes the value pushed, whatever else has changed. -/
theorem pulls_after_push (hram : ∀ o : Byte, t.busTarget (t.params.dstackBase + zext o) = .ram)
    (hsp : t.sp = o - BitVec.ofNat 8 w.bytes) (hmem : t.mem = pushedTo t.dstackAddr w o v m) :
    Pulls w v t { t with sp := o } := by
  refine pulls_of_read hram (by rw [hsp, BitVec.sub_add_cancel]) ?_
  rw [hsp, hmem]
  exact (pulledFrom_pushedTo hwf w).trans hv

theorem rpulls_after_push (hram : ∀ o : Byte, t.busTarget (t.params.rstackBase + zext o) = .ram)
    (hr : t.r = o - BitVec.ofNat 8 w.bytes) (hmem : t.mem = pushedTo t.rstackAddr w o v m) :
    RPulls w v t { t with r := o } := by
  have hpull := rpulls_of_rpopW (rpopW_ram hram w)
  have hvalue : pulledFrom t.rstackAddr w t.r t.mem = v := by
    rw [hr, hmem]
    exact (pulledFrom_pushedTo hwf w).trans hv
  rwa [hvalue, hr, BitVec.sub_add_cancel] at hpull

end AfterPush

/-! ## Registers put back -/

theorem zext_loByte {v : Word} (h : hiByte v = 0) : zext (loByte v) = v := by
  rw [← mkWord_zext, ← h, mkWord_loByte_hiByte]

section Registers

variable {s : State}

theorem cut_acc (w : Width) : cut w (s.acc w) = s.acc w := by
  cases w
  · rw [acc_w8, cut_w8, loByte_zext]
  · rfl

/-- A legal index register fits the index width (10_state.md R42). -/
theorem cut_x_of_modeInv (h : s.ModeInv) : cut s.wX s.x = s.x := by
  cases hX : s.fX
  · rw [wX_of_not_fX hX, cut_w16]
  · rw [wX_of_fX hX, cut_w8, zext_loByte (h.2 hX).1]

theorem cut_y_of_modeInv (h : s.ModeInv) : cut s.wX s.y = s.y := by
  cases hX : s.fX
  · rw [wX_of_not_fX hX, cut_w16]
  · rw [wX_of_fX hX, cut_w8, zext_loByte (h.2 hX).2]

/-- Nothing but N, Z and memory differs. -/
abbrev SameButNZ (s u : State) : Prop := u = { s with fN := u.fN, fZ := u.fZ, mem := u.mem }

theorem accResult_own (m : List Host.Cell) :
    let t : State := { s with mem := m }
    SameButNZ s (if s.fM then t.accResult8 (loByte (s.acc s.wM)) else t.accResult16 (s.acc s.wM)) := by
  rw [acc_wM]
  cases hM : s.fM <;> simp [SameButNZ, State.accResult8, State.accResult16, hM]

theorem xResult_own (h : s.ModeInv) (m : List Host.Cell) :
    let t : State := { s with mem := m }
    SameButNZ s (if s.fX then t.xResult8 (loByte s.x) else t.xResult16 s.x) := by
  cases hX : s.fX
  · simp [SameButNZ, State.xResult16, hX]
  · simp [SameButNZ, State.xResult8, zext_loByte (h.2 hX).1, hX]

theorem yResult_own (h : s.ModeInv) (m : List Host.Cell) :
    let t : State := { s with mem := m }
    SameButNZ s (if s.fX then t.yResult8 (loByte s.y) else t.yResult16 s.y) := by
  cases hX : s.fX
  · simp [SameButNZ, State.yResult16, hX]
  · simp [SameButNZ, State.yResult8, zext_loByte (h.2 hX).2, hX]

/-- The status byte of a state puts back all flags but fB, which emulation mode alone puts back (10_state.md R43, R44). -/
theorem withStatus_getP (h : s.ModeInv) (sp : Byte) (pc : Word) (fI fD : Bool) (m : List Host.Cell) :
    ({ s with sp := sp, pc := pc, fI := fI, fD := fD, mem := m } : State).withStatus s.getP =
      { s with sp := sp, pc := pc, mem := m } := by
  obtain ⟨h7, h6, h5, h4, h3, h2, h1, h0⟩ := getP_isStatusByte s
  have hx : s.fX = true → zext (loByte s.x) = s.x := fun hX => zext_loByte (h.2 hX).1
  have hy : s.fX = true → zext (loByte s.y) = s.y := fun hX => zext_loByte (h.2 hX).2
  simp only [State.withStatus, h7, h6, h5, h4, h3, h2, h1, h0]
  cases hE : s.fE <;> cases hX : s.fX <;> simp_all

end Registers

/-! ## Calls and interrupts return -/

/-- The state after JSR with its stack in RAM. -/
def State.called (s : State) (w : Word) : State :=
  { s with sp := s.sp - 2, pc := w, mem := pushedTo s.dstackAddr .w16 s.sp (s.pc - 1) s.mem }

/-- The status byte that an entry pushes. -/
def State.entryStatus (s : State) (brk : Bool) : Byte := State.getP { s with fB := brk }

/-- The state after an interrupt entry with its stack in RAM: the return address is pushed and below it the status byte. -/
def State.entered (s : State) (brk : Bool) (ret vec : Word) : State :=
  { s with
    sp := s.sp - 3, fB := brk, fI := true, fD := if s.params.intClearsD then false else s.fD, pc := vec
    mem := Memory.write (pushedTo s.dstackAddr .w16 s.sp ret s.mem) (s.dstackAddr (s.sp - 2)).toNat (s.entryStatus brk) }

section Linkage

variable {s : State} (hram : ∀ o : Byte, s.busTarget (s.params.dstackBase + zext o) = .ram)
include hram

theorem exec_jsr_ram (w : Word) : exec (.jsrAbs w) s = .next (s.called w) := by
  change finish (opJsr w s) = _
  rw [opJsr, show push16 (s.pc - 1) s = _ from pushW_ram hram .w16 (s.pc - 1)]
  rfl

theorem takeInterrupt_ram (brk : Bool) (ret vec : Word) : takeInterrupt brk ret vec s = .ok (s.entered brk ret vec) := by
  have hword := pushW_ram (s := { s with fB := brk }) hram .w16 ret
  refine takeInterrupt_eq_ok.2 ⟨_, _, hword, push8_ram ?_ _, ?_⟩
  · exact hram
  · have hsp : s.sp - BitVec.ofNat 8 Width.w16.bytes - 1 = s.sp - 3 := by simp only [Width.bytes]; bv_omega
    rw [State.entered, ← hsp]
    rfl

variable (hwf : Memory.wf s.mem = true)
include hwf

theorem rts_undoes_jsr (w : Word) : ∃ t u, exec (.jsrAbs w) s = .next t ∧ exec .rts t = .next u ∧ t.pc = w ∧
    u = { s with mem := u.mem } := by
  have hpull : PullsWord (s.pc - 1) (s.called w) { s.called w with sp := s.sp } :=
    pulls_after_push (w := .w16) hwf (cut_w16 _) hram rfl rfl
  refine ⟨_, _, exec_jsr_ram hram w, exec_rts hpull, rfl, ?_⟩
  rw [BitVec.sub_add_cancel]
  rfl

theorem pullsByte_entered (brk : Bool) (ret vec : Word) :
    PullsByte (s.entryStatus brk) (s.entered brk ret vec) { s.entered brk ret vec with sp := s.sp - 2 } := by
  have hsp : s.sp - 3 = s.sp - 2 - 1 := by bv_omega
  exact pullsByte_after_push (wf_pushedTo hwf) hram hsp rfl

theorem pullsWord_entered (brk : Bool) (ret vec : Word) :
    PullsWord ret { s.entered brk ret vec with sp := s.sp - 2 } { s.entered brk ret vec with sp := s.sp } := by
  have hvalue : pulledFrom s.dstackAddr .w16 (s.sp - 2) (s.entered brk ret vec).mem = ret :=
    (pulledFrom_write_below (wf_pushedTo hwf) _).trans (pulledFrom_pushedTo hwf .w16)
  have hsp : s.sp - 2 + 2 = s.sp := BitVec.sub_add_cancel ..
  exact pulls_of_read (w := .w16) hram hsp hvalue

/-- RTI undoes an entry but for the break flag, which it leaves as the entry wrote it. -/
theorem rti_undoes_entry (hinv : s.ModeInv) (brk : Bool) (ret vec : Word) : ∃ t u,
    takeInterrupt brk ret vec s = .ok t ∧ exec .rti t = .next u ∧ t.pc = vec ∧
      u = { s with pc := ret, fB := brk, mem := u.mem } := by
  refine ⟨_, _, takeInterrupt_ram hram brk ret vec,
    exec_rti (pullsByte_entered hram hwf brk ret vec) (pullsWord_entered hram hwf brk ret vec), rfl, ?_⟩
  have hstatus : (s.entered brk ret vec).withStatus (s.entryStatus brk) = _ :=
    withStatus_getP (s := { s with fB := brk }) hinv _ _ _ _ _
  have hsp : s.sp - 3 + 3 = s.sp := BitVec.sub_add_cancel ..
  rw [hstatus, show (s.entered brk ret vec).sp + 3 = s.sp from hsp]
  rfl

end Linkage

/-- Settles O33: JSR, BRK and an interrupt are pushes that RTS and RTI take off. -/
theorem callsAndInterruptsReturn : Obligations.CallsAndInterruptsReturn := by
  unfold Obligations.CallsAndInterruptsReturn
  intro s hinv hwf hram
  refine ⟨rts_undoes_jsr hram hwf, ?_, rti_undoes_entry hram hwf hinv false s.pc⟩
  obtain ⟨t, u, ht, hu, hpc, hstate⟩ := rti_undoes_entry hram hwf hinv true (s.pc + 1) s.brkv
  exact ⟨t, u, congrArg finish ht, hu, hpc, hstate⟩

/-! ## Each pull undoes its push -/

/-- A pull instruction puts back what a push instruction saved, but for N and Z. -/
abbrev Undoes (push pull : Instr) (s : State) : Prop :=
  ∃ t u, exec push s = .next t ∧ exec pull t = .next u ∧ SameButNZ s u

section Undoes

variable {s : State} (hwf : Memory.wf s.mem = true)
include hwf

section DataStack

variable (hram : ∀ o : Byte, s.busTarget (s.params.dstackBase + zext o) = .ram)
include hram

theorem pla_undoes_pha : Undoes .pha .pla s := by
  exact ⟨_, _, congrArg finish (pushW_ram hram _ _), exec_pla (pulls_after_push hwf (cut_acc _) hram rfl rfl),
    accResult_own _⟩

theorem plx_undoes_phx (hinv : s.ModeInv) : Undoes .phx .plx s := by
  have hpush := (pushW_cut s.wX s.x s).trans (pushW_ram hram s.wX s.x)
  exact ⟨_, _, congrArg finish hpush, exec_plx (pulls_after_push hwf (cut_x_of_modeInv hinv) hram rfl rfl),
    xResult_own hinv _⟩

theorem ply_undoes_phy (hinv : s.ModeInv) : Undoes .phy .ply s := by
  have hpush := (pushW_cut s.wX s.y s).trans (pushW_ram hram s.wX s.y)
  exact ⟨_, _, congrArg finish hpush, exec_ply (pulls_after_push hwf (cut_y_of_modeInv hinv) hram rfl rfl),
    yResult_own hinv _⟩

theorem plp_undoes_php (hinv : s.ModeInv) :
    ∃ t u, exec .php s = .next t ∧ exec .plp t = .next u ∧ u = { s with mem := u.mem } := by
  refine ⟨_, _, congrArg finish (push8_ram hram s.getP), exec_plp (pullsByte_after_push hwf hram rfl rfl), ?_⟩
  rw [show ({ s with mem := _ } : State).withStatus s.getP = _ from withStatus_getP hinv s.sp s.pc s.fI s.fD _]

end DataStack

section AuxiliaryStack

variable (hram : ∀ o : Byte, s.busTarget (s.params.rstackBase + zext o) = .ram)
include hram

theorem rla_undoes_rha : Undoes .rha .rla s := by
  exact ⟨_, _, congrArg finish (rpushW_ram hram _ _), exec_rla (rpulls_after_push hwf (cut_acc _) hram rfl rfl),
    accResult_own _⟩

theorem rlx_undoes_rhx (hinv : s.ModeInv) : Undoes .rhx .rlx s := by
  have hpush := (rpushW_cut s.wX s.x s).trans (rpushW_ram hram s.wX s.x)
  exact ⟨_, _, congrArg finish hpush, exec_rlx (rpulls_after_push hwf (cut_x_of_modeInv hinv) hram rfl rfl),
    xResult_own hinv _⟩

theorem rly_undoes_rhy (hinv : s.ModeInv) : Undoes .rhy .rly s := by
  have hpush := (rpushW_cut s.wX s.y s).trans (rpushW_ram hram s.wX s.y)
  exact ⟨_, _, congrArg finish hpush, exec_rly (rpulls_after_push hwf (cut_y_of_modeInv hinv) hram rfl rfl),
    yResult_own hinv _⟩

theorem rli_undoes_rhi : Undoes .rhi .rli s :=
  ⟨_, _, congrArg finish (rpushW_ram hram .w16 s.i), exec_rli (rpulls_after_push hwf (cut_w16 _) hram rfl rfl), rfl⟩

end AuxiliaryStack

end Undoes

/-- Settles O36: pair by pair. -/
theorem pullUndoesPush : Obligations.PullUndoesPush := by
  unfold Obligations.PullUndoesPush
  intro s hinv hwf hram
  have hdata := fun o => (hram o).1
  have haux := fun o => (hram o).2
  refine ⟨?_, plp_undoes_php hwf hdata hinv⟩
  simp only [List.forall_mem_cons, List.not_mem_nil, false_imp_iff, implies_true, and_true]
  exact ⟨pla_undoes_pha hwf hdata, plx_undoes_phx hwf hdata hinv, ply_undoes_phy hwf hdata hinv,
    rla_undoes_rha hwf haux, rlx_undoes_rhx hwf haux hinv, rly_undoes_rhy hwf haux hinv, rli_undoes_rhi hwf haux⟩

end Sys2Proof.Machine
end

section
/-! PROOFS. Width changes (47_mode_switch.md R414), multiply and divide (48_muldiv.md). -/

namespace Sys2Proof.Machine

/-! ## Width changes -/

/-- Of the writers of the widths and the mode, none writes the accumulator. -/
theorem writers_widths {op : Op} (h : op ∈ Part.widths.writers ∨ op ∈ Part.fE.writers) :
    (op = .rep ∨ op = .sep ∨ op = .plp ∨ op = .rti ∨ op = .xce) ∧ op ∉ Part.acc.writers := by
  cases op <;> revert h <;> decide

theorem exec_width_change {i : Instr} {s t : State} (h : exec i s = .next t)
    (hne : t.fM ≠ s.fM ∨ t.fX ≠ s.fX ∨ t.fE ≠ s.fE) :
    (i.op = .rep ∨ i.op = .sep ∨ i.op = .plp ∨ i.op = .rti ∨ i.op = .xce) ∧ t.al = s.al ∧ t.ah = s.ah := by
  have hc := exec_changes h
  have hop : i.op ∈ Part.widths.writers ∨ i.op ∈ Part.fE.writers := by
    obtain hM | hX | hE := hne
    · exact .inl (hc.writes .widths fun hk => hM hk.1)
    · exact .inl (hc.writes .widths fun hk => hX hk.2)
    · exact .inr (hc.writes .fE hE)
  obtain ⟨hfive, hacc⟩ := writers_widths hop
  exact ⟨hfive, hc.kept .acc hacc⟩

/-- SEP and REP of the accumulator width, out of emulation mode. -/
theorem exec_sep_M {s : State} (hE : s.fE = false) : exec (.sep 0x20) s = .next { s with fM := true } := by
  rw [(statusMaskResults s 0x20).2]
  simp [hE]

theorem exec_rep_M {s : State} (hE : s.fE = false) : exec (.rep 0x20) s = .next { s with fM := false } := by
  rw [(statusMaskResults s 0x20).1]
  simp [hE]

/-- Both widths made 8, as the entry into emulation mode does. -/
def State.narrowed (s : State) : State :=
  { s with fM := true, fX := true, x := zext (loByte s.x), y := zext (loByte s.y) }

theorem exec_xce_enter (s : State) : exec .xce { s with fC := true } = .next { s.narrowed with fC := s.fE, fE := true } :=
  (modeExchangeResults { s with fC := true }).1 rfl

theorem exec_xce_leave (s : State) : exec .xce { s with fC := false } = .next { s with fC := s.fE, fE := false } :=
  (modeExchangeResults { s with fC := false }).2.1 rfl

/-- Through emulation mode and back, the accumulator keeps both its bytes. -/
theorem narrowed_round_trip {s : State} (hE : s.fE = false) (hM : s.fM = false) :
    exec (.rep 0x20) { s.narrowed with fC := true, fE := false } =
      .next { s with fC := true, fX := true, x := zext (loByte s.x), y := zext (loByte s.y) } := by
  rw [exec_rep_M rfl]
  simp only [State.narrowed, hE, hM]

/-- Settles O42: who writes a width, and two round trips run step by step. -/
theorem widthRoundTrip : Obligations.WidthRoundTrip := by
  unfold Obligations.WidthRoundTrip
  refine ⟨fun i s t h hne => exec_width_change h hne, fun s hE hM => ⟨?_, ?_⟩⟩
  · refine ⟨_, exec_sep_M hE, rfl, (exec_rep_M (s := { s with fM := true }) hE).trans ?_⟩
    rw [← hM]
  · exact ⟨{ s with fC := true }, { s.narrowed with fC := s.fE, fE := true }, { s.narrowed with fC := false, fE := true },
      { s.narrowed with fC := true, fE := false }, rfl, exec_xce_enter s, rfl, rfl,
      exec_xce_leave { s.narrowed with fE := true }, narrowed_round_trip hE hM⟩

/-! ## MUL -/

theorem mulDivSigned_iff (s : State) : s.mulDivSigned = true ↔ s.fC = s.params.muldivSignedWhenC := by
  rw [State.mulDivSigned]
  cases s.params.muldivSignedWhenC <;> cases s.fC <;> decide

theorem mulDivSigned_of_ne {s : State} (h : s.fC ≠ s.params.muldivSignedWhenC) : s.mulDivSigned = false :=
  Bool.eq_false_of_not_eq_true (mt (mulDivSigned_iff s).1 h)

/-- The bytes of a 32-bit product and its flags, in numbers. -/
theorem product_parts (n : Nat) (h : n < 2 ^ 32) : let p := BitVec.ofNat 32 n
    loByte (p.setWidth 16) = BitVec.ofNat 8 n ∧ hiByte (p.setWidth 16) = BitVec.ofNat 8 (n / 256) ∧
    (p >>> 16).setWidth 16 = BitVec.ofNat 16 (n / 65536) ∧ p.getLsbD 31 = decide (2 ^ 31 ≤ n) ∧
    (p == 0) = decide (n = 0) := by
  intro p
  have hp : p.toNat = n := Nat.mod_eq_of_lt h
  refine ⟨?_, ?_, ?_, ?_, ?_⟩
  · apply BitVec.eq_of_toNat_eq
    simp only [loByte, BitVec.toNat_setWidth, BitVec.toNat_ofNat, hp]
    omega
  · apply BitVec.eq_of_toNat_eq
    simp only [hiByte, BitVec.toNat_setWidth, BitVec.toNat_ushiftRight, BitVec.toNat_ofNat, hp, Nat.shiftRight_eq_div_pow]
    omega
  · apply BitVec.eq_of_toNat_eq
    simp only [BitVec.toNat_setWidth, BitVec.toNat_ushiftRight, BitVec.toNat_ofNat, hp, Nat.shiftRight_eq_div_pow]
  · rw [← hp]
    exact (BitVec.msb_eq_getLsbD_last p).symm.trans (BitVec.msb_eq_decide p)
  · rw [beq_eq_decide]
    exact decide_eq_decide.2 (by rw [BitVec.toNat_eq, hp]; rfl)

/-- The bytes of a 32-bit product and its flags, in integers. -/
theorem product_parts_signed (n : Int) (hlow : -2 ^ 31 ≤ n) (hhigh : n < 2 ^ 31) : let p := BitVec.ofInt 32 n
    loByte (p.setWidth 16) = BitVec.ofInt 8 n ∧ hiByte (p.setWidth 16) = BitVec.ofInt 8 (n / 256) ∧
    (p >>> 16).setWidth 16 = BitVec.ofInt 16 (n / 65536) ∧ p.getLsbD 31 = decide (n < 0) ∧ (p == 0) = decide (n = 0) := by
  intro p
  have hp : (p.toNat : Int) = n % 2 ^ 32 := by
    rw [BitVec.toNat_ofInt]
    omega
  obtain ⟨h0, h1, h2, h3, h4⟩ := product_parts p.toNat p.isLt
  rw [BitVec.ofNat_toNat, BitVec.setWidth_eq] at h0 h1 h2 h3 h4
  rw [h0, h1, h2, h3, h4]
  refine ⟨?_, ?_, ?_, ?_, ?_⟩
  · apply BitVec.eq_of_toNat_eq
    simp only [BitVec.toNat_ofNat, BitVec.toNat_ofInt]
    omega
  · apply BitVec.eq_of_toNat_eq
    simp only [BitVec.toNat_ofNat, BitVec.toNat_ofInt]
    omega
  · apply BitVec.eq_of_toNat_eq
    simp only [BitVec.toNat_ofNat, BitVec.toNat_ofInt]
    omega
  · exact decide_eq_decide.2 (by omega)
  · exact decide_eq_decide.2 (by omega)

/-- The product of two signed words needs 31 bits and a sign. -/
theorem toInt_mul_bounds (a m : Word) : -2 ^ 31 ≤ a.toInt * m.toInt ∧ a.toInt * m.toInt < 2 ^ 31 := by
  have habs (v : Word) : v.toInt.natAbs ≤ 2 ^ 15 := by
    have := BitVec.le_toInt v
    have := BitVec.toInt_lt (x := v)
    omega
  have hmul : (a.toInt * m.toInt).natAbs ≤ 2 ^ 15 * 2 ^ 15 := by
    rw [Int.natAbs_mul]
    exact Nat.mul_le_mul (habs a) (habs m)
  omega

theorem multiplied_of_parts {s : State} {m : Word} {lo hi : Byte} {d : Word} {neg zero : Bool}
    (hlo : loByte ((product s.mulDivSigned s.a16 m).setWidth 16) = lo)
    (hhi : hiByte ((product s.mulDivSigned s.a16 m).setWidth 16) = hi)
    (hd : (product s.mulDivSigned s.a16 m >>> 16).setWidth 16 = d)
    (hneg : (product s.mulDivSigned s.a16 m).getLsbD 31 = neg) (hzero : (product s.mulDivSigned s.a16 m == 0) = zero) :
    s.multiplied m = { s with al := lo, ah := hi, d := d, fN := neg, fZ := zero } := by
  subst hlo hhi hd hneg hzero
  rfl

/-- Settles O43: the product, read off by its bytes. -/
theorem mulResults : Obligations.MulResults := by
  unfold Obligations.MulResults
  intro i mm s m t ho hm h
  have hexec : exec i s = .next (State.multiplied { s with events := t.events } m) := by
    rw [exec_mul s ho hm, opMul_eq, withOperand_ok _ h, finish_ok]
  rw [hexec]
  refine ⟨fun hC => ?_, fun hC => ?_⟩
  · have hprod : product s.mulDivSigned s.a16 m = BitVec.ofNat 32 (s.a16.toNat * m.toNat) := by
      rw [mulDivSigned_of_ne hC]
      rfl
    have hlt : s.a16.toNat * m.toNat < 2 ^ 16 * 2 ^ 16 := Nat.mul_lt_mul'' s.a16.isLt m.isLt
    obtain ⟨h0, h1, h2, h3, h4⟩ := product_parts _ hlt
    rw [← hprod] at h0 h1 h2 h3 h4
    exact congrArg _ (multiplied_of_parts h0 h1 h2 h3 h4)
  · have hprod : product s.mulDivSigned s.a16 m = BitVec.ofInt 32 (s.a16.toInt * m.toInt) := by
      rw [(mulDivSigned_iff s).2 hC]
      rfl
    obtain ⟨hlow, hhigh⟩ := toInt_mul_bounds s.a16 m
    obtain ⟨h0, h1, h2, h3, h4⟩ := product_parts_signed _ hlow hhigh
    rw [← hprod] at h0 h1 h2 h3 h4
    exact congrArg _ (multiplied_of_parts h0 h1 h2 h3 h4)

/-! ## DIV -/

theorem divided_zero (s : State) :
    s.divided 0 = { s with al := 0, ah := 0, d := 0, fV := true, fZ := true, fN := false } := if_pos rfl

theorem divided_of_quotient {s : State} {m q r : Word} (hm : m ≠ 0)
    (h : quotient s.mulDivSigned (s.d ++ s.a16) m = (q, r)) : s.divided m =
      { s with al := loByte q, ah := hiByte q, d := r, fV := false, fN := q.msb, fZ := decide (q = 0) } := by
  rw [State.divided, if_neg hm, h, State.setNZ, topBit_w16, cut_w16, beq_eq_decide]
  rfl

/-- The dividend as a number (48_muldiv.md R431). -/
theorem toNat_dividend (d a : Word) : (d ++ a : BitVec 32).toNat = d.toNat * 65536 + a.toNat := by
  show (d ++ a : BitVec (16 + 16)).toNat = _
  rw [BitVec.toNat_append, ← Nat.shiftLeft_add_eq_or_of_lt a.isLt, Nat.shiftLeft_eq]

/-- The dividend as an integer. -/
theorem toInt_dividend (d a : Word) : (d ++ a : BitVec 32).toInt = d.toInt * 65536 + (a.toNat : Int) := by
  show (d ++ a : BitVec (16 + 16)).toInt = _
  rw [BitVec.toInt_append, if_neg (by decide)]
  omega

/-- Rounding toward zero, from any quotient and remainder that fit (48_muldiv.md R431). -/
theorem tdiv_tmod_of {n m q r : Int} (hm : m ≠ 0) (hn : n = q * m + r) (hr : r.natAbs < m.natAbs)
    (hpos : 0 ≤ n → 0 ≤ r) (hneg : n < 0 → r ≤ 0) : n.tdiv m = q ∧ n.tmod m = r := by
  have heq : r + m * q = n := by rw [hn]; ring
  by_cases hsign : 0 ≤ n
  · exact (Int.tdiv_tmod_unique hsign hm).2 ⟨heq, hpos hsign, by have := hpos hsign; omega⟩
  · have hr0 := hneg (by omega)
    exact (Int.tdiv_tmod_unique' (by omega) hm).2 ⟨heq, by omega, hr0⟩

/-- The sign of the dividend is that of D. -/
theorem dividend_nonneg_iff (d a : Word) : 0 ≤ d.toInt * 65536 + (a.toNat : Int) ↔ d.msb = false := by
  have ha := a.isLt
  have hmsb : d.msb = true ↔ d.toInt < 0 := by rw [BitVec.msb_eq_toInt, decide_eq_true_eq]
  rw [← Bool.not_eq_true, hmsb]
  omega

theorem quotient_unsigned (n : BitVec 32) (m : Word) :
    quotient false n m = (BitVec.ofNat 16 (n.toNat / m.toNat), BitVec.ofNat 16 (n.toNat % m.toNat)) := rfl

theorem quotient_signed (n : BitVec 32) (m : Word) :
    quotient true n m = (BitVec.ofInt 16 (n.toInt.tdiv m.toInt), BitVec.ofInt 16 (n.toInt.tmod m.toInt)) := rfl

/-- Settles O44: the quotient and remainder by rounding toward zero, and the case of a zero divisor. -/
theorem divResults : Obligations.DivResults := by
  unfold Obligations.DivResults
  intro i mm s m t ho hm h
  have hexec : exec i s = .next (State.divided { s with events := t.events } m) := by
    rw [exec_div s ho hm, opDiv_eq, withOperand_ok _ h, finish_ok]
  rw [hexec]
  refine ⟨?_, fun hne hC => ?_, fun hne hC q r hn hr hpos hneg => ?_⟩
  · rintro rfl
    exact congrArg _ (divided_zero _)
  · have hq := quotient_unsigned (s.d ++ s.a16) m
    rw [toNat_dividend, ← mulDivSigned_of_ne hC] at hq
    exact congrArg _ (divided_of_quotient hne hq)
  · have hm0 : m.toInt ≠ 0 := fun h0 => hne (BitVec.eq_of_toInt_eq h0)
    have hsign := dividend_nonneg_iff s.d s.a16
    obtain ⟨hdiv, hmod⟩ := tdiv_tmod_of hm0 hn hr (fun h => hpos (hsign.1 h))
      (fun h => hneg (Bool.eq_true_of_not_eq_false fun hf => absurd (hsign.2 hf) (not_le.2 h)))
    have hq := quotient_signed (s.d ++ s.a16) m
    rw [toInt_dividend, show s.a16 = mkWord s.al s.ah from rfl, hdiv, hmod, ← (mulDivSigned_iff s).2 hC] at hq
    exact congrArg _ (divided_of_quotient hne hq)

end Sys2Proof.Machine
end

section
/-! PROOFS. The machine step (30_encoding.md R140, 60_exceptions.md), construction, reset and the moves of the host
(70_reset_and_hazards.md). -/

namespace Sys2Proof.Machine

/-! ## The fetch from RAM -/

/-- RAM holds bytes from PC on. -/
def State.HoldsAtPc (s : State) (bytes : List Byte) : Prop :=
  ∀ (k : Nat) (h : k < bytes.length), s.busTarget (s.pc + BitVec.ofNat 16 k) = .ram ∧
    Memory.read s.mem (s.pc + BitVec.ofNat 16 k).toNat = bytes[k]

/-- A byte fetched from RAM, and the bytes after it where PC then points. -/
theorem fetchByte_ram {s : State} {b : Byte} {rest : List Byte} (h : s.HoldsAtPc (b :: rest)) :
    fetchByte s = .ok (b, { s with pc := s.pc + 1 }) ∧ ({ s with pc := s.pc + 1 } : State).HoldsAtPc rest := by
  have h0 := h 0 (Nat.succ_pos _)
  simp only [BitVec.add_zero, List.getElem_cons_zero] at h0
  obtain ⟨hram, hread⟩ := h0
  refine ⟨?_, fun k hk => ?_⟩
  · rw [fetchByte, busRead_ram hram, hread]
    rfl
  · have hpc : s.pc + 1 + BitVec.ofNat 16 k = s.pc + BitVec.ofNat 16 (k + 1) := by
      rw [BitVec.add_assoc, Nat.add_comm k 1, BitVec.ofNat_add]
      rfl
    have hnext := h (k + 1) (Nat.succ_lt_succ hk)
    rw [← hpc, List.getElem_cons_succ] at hnext
    exact hnext

/-- The fetch reads what the decoder reads of the bytes at PC (30_encoding.md R140). -/
theorem fetch_of_decodeIn {s : State} {bytes : List Byte} {i : Instr} (hbytes : s.HoldsAtPc bytes)
    (hd : decodeIn s.params.illegalOpcodes s.wM s.wX bytes = .ok (i, [])) :
    fetch s = .ok (i, { s with pc := s.pc + BitVec.ofNat 16 bytes.length }) := by
  cases bytes with
  | nil => cases hd
  | cons b0 rest =>
    obtain ⟨hb0, hrest⟩ := fetchByte_ram hbytes
    unfold decodeIn decode at hd
    rw [fetch, hb0, ok_bind]
    simp only at hd ⊢
    split at hd
    next hlength =>
      cases hd
      rw [hlength]
      rfl
    next b1 rest hlength =>
      cases hd
      obtain ⟨hb1, -⟩ := fetchByte_ram hrest
      have hpc : s.pc + 1 + 1 = s.pc + BitVec.ofNat 16 2 := BitVec.add_assoc ..
      simp only [hlength, hb1, ok_bind, hpc]
      rfl
    next b1 b2 rest hlength =>
      cases hd
      obtain ⟨hb1, hrest⟩ := fetchByte_ram hrest
      obtain ⟨hb2, -⟩ := fetchByte_ram hrest
      have hpc : s.pc + 1 + 1 + 1 = s.pc + BitVec.ofNat 16 3 := by bv_omega
      simp only [hlength, hb1, hb2, ok_bind, hpc]
      rfl
    next => cases hd

/-! ## The start of a step -/

/-- Without a pending NMI, and with the IRQ line low or masked, no interrupt is entered (60_exceptions.md R484). -/
theorem interruptCheck_quiet {s : State} (hnmi : s.nmi = false) (hirq : s.irq = false ∨ s.fI = true) :
    interruptCheck s = .ok s := by
  unfold interruptCheck
  rw [if_neg (ne_true_of_eq_false hnmi), if_neg]
  obtain h | h := hirq <;> simp [h]

theorem beginStep_quiet {s : State} (hnmi : s.nmi = false) (hirq : s.irq = false ∨ s.fI = true) :
    beginStep s = fetch { s with trap := false } := by
  rw [beginStep, interruptCheck_quiet (s := { s with trap := false }) hnmi hirq, ok_bind]

theorem awake_of_not_waiting {s : State} (h : s.waiting = false) : s.awake = s := if_neg (ne_true_of_eq_false h)

/-- A step in which no interrupt is entered begins with the instruction that RAM holds at PC. -/
theorem beginStep_ram {s : State} {bytes : List Byte} {i : Instr} (hnmi : s.nmi = false)
    (hirq : s.irq = false ∨ s.fI = true) (hbytes : s.HoldsAtPc bytes)
    (hd : decodeIn s.params.illegalOpcodes s.wM s.wX bytes = .ok (i, [])) :
    beginStep s = .ok (i, { s with trap := false, pc := s.pc + BitVec.ofNat 16 bytes.length }) :=
  (beginStep_quiet hnmi hirq).trans (fetch_of_decodeIn (s := { s with trap := false }) hbytes hd)

/-- Settles O48: with no interrupt to enter, the step runs what its fetch decodes, by the three outcomes of that. -/
theorem stepRunsDecodedInstruction : Obligations.StepRunsDecodedInstruction := by
  unfold Obligations.StepRunsDecodedInstruction
  intro s bytes i hs hw hnmi hirq hd hbytes
  have hbegin := beginStep_ram hnmi hirq hbytes hd
  have hstep : step s = coreStep s := by rw [step_of_enabled hs, awake_of_not_waiting hw]
  cases hexec : exec i { s with trap := false, pc := s.pc + BitVec.ofNat 16 bytes.length } with
  | next u => simp only [hstep, coreStep, hbegin, hexec]
  | fault f => simp only [hstep, coreStep, hbegin, hexec]
  | refused r => simp only [hstep, coreStep, hbegin, hexec]

/-! ## Interrupts -/

/-- An entry changes SP, fB, fI, fD, PC, memory and the record alone. -/
theorem EntersInterrupt.state {brk : Bool} {ret vec : Word} {s t : State} (h : EntersInterrupt brk ret vec s t) :
    t = { s with sp := s.sp - 3, fB := brk, fI := true, fD := t.fD, pc := vec, mem := t.mem, events := t.events } := by
  obtain ⟨v, ⟨hv, -⟩, rfl⟩ := h.frame
  rw [hv]
  rfl

/-- A core step that enters an interrupt first is the core step of the state in which the handler begins. -/
theorem coreStep_of_entry {s t : State} (hcheck : interruptCheck { s with trap := false } = .ok t)
    (htrap : t.trap = false) (hnmi : t.nmi = false) (hI : t.fI = true) : coreStep s = coreStep t := by
  have hclear : { t with trap := false } = t := by rw [← htrap]
  have hbegin : beginStep s = beginStep t := by
    rw [beginStep_quiet hnmi (.inr hI), hclear, beginStep, hcheck, ok_bind]
  rw [coreStep, coreStep, hbegin]

/-- The step of an enabled machine that enters an interrupt, from a state `u` that differs in its pending lines. -/
theorem step_of_entry {s u t : State} {vec : Word} (hs : s.Enabled) (hw : s.waiting = false)
    (hcheck : interruptCheck { s with trap := false } = takeInterrupt false s.pc vec u)
    (hu : u = { s with trap := false, nmi := u.nmi, irq := u.irq }) (hnmi : u.nmi = false)
    (h : EntersInterrupt false s.pc vec u t) :
    step s = step t ∧ t.nmi = false ∧ t.irq = u.irq ∧ t.fI = true ∧ t.pc = vec := by
  have ht := h.state
  rw [hu] at ht
  have htnmi : t.nmi = false := by rw [ht]; exact hnmi
  have htI : t.fI = true := by rw [ht]
  have htw : t.waiting = false := by rw [ht]; exact hw
  have hts : t.Enabled := by
    obtain ⟨hd, hh, hr, hwait⟩ := hs
    rw [ht]
    exact ⟨hd, hh, hr, hwait⟩
  refine ⟨?_, htnmi, by rw [ht], htI, by rw [ht]⟩
  rw [step_of_enabled hs, step_of_enabled hts, awake_of_not_waiting hw, awake_of_not_waiting htw]
  exact coreStep_of_entry (hcheck.trans (takeInterrupt_of_enters h)) (by rw [ht]) htnmi htI

theorem vector_of_source (s : State) (v : VectorSource) :
    (v = .brkv → s.vector v = s.brkv) ∧ ∀ a, v = .constant a → s.vector v = a := by
  refine ⟨?_, ?_⟩
  · rintro rfl
    rfl
  · rintro a rfl
    rfl

/-- Settles O49: NMI first, then an unmasked IRQ. -/
theorem interruptIsEnteredBeforeTheFetch : Obligations.InterruptIsEnteredBeforeTheFetch := by
  unfold Obligations.InterruptIsEnteredBeforeTheFetch
  intro s t hs hw
  refine ⟨fun hnmi h => ?_, fun hnmi hirq hI h => ?_⟩
  · have hcheck : interruptCheck { s with trap := false } =
        takeInterrupt false s.pc (nmiVector { s with trap := false, nmi := false })
          { s with trap := false, nmi := false } :=
      if_pos hnmi
    obtain ⟨hstep, h1, h2, h3, hpc⟩ := step_of_entry hs hw hcheck rfl rfl h
    refine ⟨hstep, h1, h2, h3, hpc, fun hv => ?_, fun a hv => ?_⟩
    · rw [hpc]
      exact (vector_of_source _ _).1 hv
    · rw [hpc]
      exact (vector_of_source _ _).2 a hv
  · have hcheck : interruptCheck { s with trap := false } =
        takeInterrupt false s.pc (irqVector { s with trap := false, irq := false })
          { s with trap := false, irq := false } := by
      refine (if_neg (ne_true_of_eq_false hnmi)).trans (if_pos ?_)
      simp [hirq, hw, hI]
    obtain ⟨hstep, h1, h2, h3, hpc⟩ := step_of_entry hs hw hcheck rfl hnmi h
    refine ⟨hstep, h1, h2, h3, hpc, fun hv => ?_, fun a hv => ?_⟩
    · rw [hpc]
      exact (vector_of_source _ _).1 hv
    · rw [hpc]
      exact (vector_of_source _ _).2 a hv

/-! ## The end of a step, and the states without one -/

theorem redBusTick_none {s : State} (h : s.activePeripheral = none) : redBusTick s = s := by
  unfold redBusTick
  rw [h]

theorem redBusTick_some {s : State} {p : Peripheral} (h : s.activePeripheral = some p) :
    let e := HostEvent.peripheralTick p :: s.events
    redBusTick s = { s with events := e, tokens := min (s.tokens + Config.tickSignals e) 2 } := by
  unfold redBusTick
  rw [h]
  rfl

/-- Settles O50: the tick, and the three ends after it. -/
theorem machineStepEnds : Obligations.MachineStepEnds := by
  unfold Obligations.MachineStepEnds
  refine fun s => ⟨redBusTick_none, fun p => redBusTick_some, ?_⟩
  dsimp only
  refine ⟨fun hh => if_pos hh, fun hh hw ht => ?_, fun hh hwt => ?_⟩
  · refine (if_neg (ne_true_of_eq_false hh)).trans ((if_pos ?_).trans rfl)
    simp [hw, ht]
  · refine (if_neg (ne_true_of_eq_false hh)).trans (if_neg ?_)
    obtain hw | ht := hwt
    · simp [hw]
    · simp [ht]

/-- A wait with a token is released before the step. -/
theorem step_of_wait {s : State} (hs : s.Enabled) (hw : s.waiting = true) : step s = step (wakeRelease s) := by
  have hawake : s.awake = wakeRelease s := if_pos hw
  have hs' : (wakeRelease s).Enabled := by
    obtain ⟨hd, hh, hr, -⟩ := hs
    exact ⟨hd, hh, hr, fun h => by cases h⟩
  rw [step_of_enabled hs, step_of_enabled hs', hawake, awake_of_not_waiting rfl]

/-- Settles O51: the stops in the order the machine step tests them. -/
theorem blockedMachineTakesNoStep : Obligations.BlockedMachineTakesNoStep := by
  unfold Obligations.BlockedMachineTakesNoStep
  refine fun s => ⟨fun hd => ?_, fun hd => ⟨fun hh => ?_, fun hh hr => ?_, fun hh hr hw => ⟨fun ht => ?_, fun ht => ?_⟩⟩⟩
  · simp [step, machineStep, hd]
  · simp [step, machineStep, hd, hh]
  · simp [step, machineStep, hd, hh, hr]
  · simp [step, machineStep, hd, hh, hr, hw, ht]
  · exact step_of_wait ⟨hd, hh, hr, fun _ => ht⟩ hw

/-! ## Construction, reset and the host -/

/-- Settles O52: reset writes its fields and no other. -/
theorem resetValues : Obligations.ResetValues := by
  unfold Obligations.ResetValues
  intro s
  refine ⟨?_, ?_, ?_, ?_⟩ <;> and_intros <;> rfl

/-- Settles O53: the fields of construction, the moves after it, and the values of this spec. -/
theorem constructionThenResetThenRun : Obligations.ConstructionThenResetThenRun := by
  unfold Obligations.ConstructionThenResetThenRun
  refine ⟨fun p => ⟨?_, rfl, rfl, rfl, rfl⟩, rfl, by decide, rfl, rfl, rfl, rfl, rfl⟩
  and_intros <;> rfl

/-- The binding of a slot after an installation. -/
theorem rbBind_install (s : State) (slot : Byte) (p : Peripheral) (k : Byte) :
    (s.rbBind.set slot.toNat (some p) slot.isLt)[k.toNat]'(k.isLt) =
      if k = slot then some p else s.rbBind[k.toNat]'(k.isLt) := by
  rw [Vector.getElem_set]
  simp only [BitVec.toNat_eq, eq_comm]

/-- Settles O54: each move by its definition. -/
theorem hostMovesAreAsListed : Obligations.HostMovesAreAsListed := by
  unfold Obligations.HostMovesAreAsListed
  refine fun s => ⟨rfl, rfl, rfl, rfl, fun hr => ?_, fun hr => ?_, fun hd => ?_⟩
  · simp [hostMove, hr]
  · have hnot := ne_true_of_eq_false hr
    refine ⟨if_neg hnot, fun hreset => ?_, fun hreset => ?_, fun slot p => ⟨_, if_neg hnot, rfl, rbBind_install s slot p⟩⟩
    · simp [hostMove, hr, hreset, State.run]
    · simp [hostMove, hr, hreset]
  · exact ⟨s.stop, s.stop.resetCore, s.stop.resetCore.run, rfl, rfl, rfl, ⟨hd, rfl, rfl, fun h => by cases h⟩, rfl, rfl⟩

/-- State.reset has one device, RAM from the first address to the last. -/
theorem reset_devicesCover : State.reset.DevicesCover := by
  intro a
  have ha : a ≤ 0xFFFF := by
    have := a.isLt
    bv_omega
  exact ⟨⟨0x0000, 0xFFFF, .ram⟩, by simp [State.reset, nearestDevice], ha⟩

/-- Settles O60: reset gives the mode, and the platform the rest. -/
theorem resetMeetsInvariant : Obligations.ResetMeetsInvariant := by
  unfold Obligations.ResetMeetsInvariant
  refine ⟨?_, ⟨rfl, rfl, rfl, fun h => by cases h⟩, reset_devicesCover, fun p hp => ?_⟩
  · exact ⟨⟨fun _ => ⟨rfl, rfl⟩, fun _ => ⟨rfl, rfl⟩⟩, by decide, fun _ => rfl, by decide, rfl⟩
  · obtain ⟨hparams, htokens, hdistinct, hram⟩ := hp
    have h0 : hiByte 0 = 0 := by decide
    exact ⟨⟨⟨fun _ => ⟨rfl, rfl⟩, fun _ => ⟨h0, h0⟩⟩, htokens, fun _ => rfl, hparams, hram⟩,
      ⟨hdistinct, rfl, rfl, fun h => by cases h⟩, rfl⟩

end Sys2Proof.Machine
end
